-- ==== Sys2Proof/Word.lean ====
section
/-! DEFINITION. The word types of the block, each with the width the spec gives it (00_scope.md R7). -/

namespace Sys2Proof

/-- An 18-bit command word, OP in bits 17:16 and VALUE in bits 15:0 (30_encoding.md R50). -/
abbrev CommandWord := BitVec 18

/-- The 16-bit unsigned operand of REFRESH (30_encoding.md R52). -/
abbrev Value := BitVec 16

/-- One entry of the digit buffer, and an index of the symbol ROM: 4 bits (10_state.md R17, 20_memory.md R32). -/
abbrev Digit := BitVec 4

/-- A 7-bit segment pattern; bit i drives segment A+i (40_symbol_table.md R59). -/
abbrev Pattern := BitVec 7

/-- A 2-bit position: a value of CURSOR, an index of DIGBUF or of a digit-select line (10_state.md R16). -/
abbrev Position := BitVec 2

end Sys2Proof
end

