-- ==== Sys2Proof/Syntax.lean ====
section
/-! DEFINITION. The commands of the block, one constructor per row of the opcode table, and the abstract form of one
line of its assembler text. -/

namespace Sys2Proof

/-- The two commands (30_encoding.md R51). The operand of REFRESH has its 16 bits in its type, so every term is well formed
(30_encoding.md R52: "no REFRESH operand can exceed 65535"). -/
inductive Instr where
  /-- INIT, `Initialize()` (41_digit_scanner.md R74). -/
  | init
  /-- REFRESH value, `Refresh(value: unsigned 16-bit)` (41_digit_scanner.md R75). -/
  | refresh (value : Value)
  deriving DecidableEq, Repr

/-- The mnemonics of the assembler text (30_encoding.md R56). -/
inductive Mnemonic where
  | init
  | refresh
  deriving DecidableEq, Repr

/-- A command as the assembler text writes it, its immediate a number not yet checked (30_encoding.md R56). -/
structure SourceCommand where
  mnemonic : Mnemonic
  operand  : Option Nat
  deriving DecidableEq, Repr

end Sys2Proof
end

