-- ==== Sys2Proof/WellFormed.lean ====
section
/-! DEFINITION. What the assembler refuses (30_encoding.md R56). An `Instr` needs no check: its type admits exactly the
operands the spec does. -/

namespace Sys2Proof

/-- "It also refuses INIT with an operand" (30_encoding.md R56). -/
def SourceCommand.initHasNoOperand (c : SourceCommand) : Bool :=
  match c.mnemonic with
  | .init => c.operand.isNone
  | .refresh => true

/-- `"REFRESH" imm`: REFRESH is written with its immediate (30_encoding.md R56). -/
def SourceCommand.refreshHasOperand (c : SourceCommand) : Bool :=
  match c.mnemonic with
  | .init => true
  | .refresh => c.operand.isSome

/-- "An assembler refuses a REFRESH immediate outside 0..65535" (30_encoding.md R56). -/
def SourceCommand.operandFits (c : SourceCommand) : Bool :=
  match c.operand with
  | none => true
  | some n => decide (n ≤ 65535)

/-- All the checks of the assembler on one command. -/
def SourceCommand.wellFormed (c : SourceCommand) : Bool :=
  c.initHasNoOperand && c.refreshHasOperand && c.operandFits

end Sys2Proof
end

