-- ==== Sys2Proof/Decode.lean ====
section
/-! DEFINITION. The decoder of command words, total over all 2^18 of them (30_encoding.md R53), the encoder (R50, R56),
and the assembler's last stage (R56). -/

namespace Sys2Proof

/-- The classes of illegal words in the opcode map (30_encoding.md R54). -/
inductive IllegalWord where
  /-- OP = 0b00 with VALUE ≠ 0. -/
  | initWithValue
  /-- OP = 0b10. -/
  | reservedOp10
  /-- OP = 0b11. -/
  | reservedOp11
  deriving DecidableEq, Repr

/-- The result of decoding: a command, or ILLEGAL with the class of the word (30_encoding.md R53). -/
inductive Decoded where
  | command (i : Instr)
  | illegal (why : IllegalWord)
  deriving DecidableEq, Repr

/-- OP = CMD[17:16] (30_encoding.md R50). -/
def opField (w : CommandWord) : BitVec 2 := w.extractLsb' 16 2

/-- VALUE = CMD[15:0] (30_encoding.md R50). -/
def valueField (w : CommandWord) : Value := w.extractLsb' 0 16

/-- The decode function of 30_encoding.md R53; OP as in R51. -/
def decode (w : CommandWord) : Decoded :=
  if opField w = 0b00#2 then
    if valueField w = 0x0000#16 then .command .init else .illegal .initWithValue
  else if opField w = 0b01#2 then .command (.refresh (valueField w))
  else if opField w = 0b10#2 then .illegal .reservedOp10
  else .illegal .reservedOp11

/-- The command word of a command: OP in the high two bits, VALUE below (30_encoding.md R50, R51, R54). -/
def encode : Instr → CommandWord
  | .init => 0b00#2 ++ 0x0000#16
  | .refresh value => 0b01#2 ++ value

/-- The instruction the decoder reads from a table word: a command word is 18 bits, so a word with a bit above bit 17 is
none (notes/assumptions/21.md). -/
def decodeTableWord (nbits w : Nat) : Option Instr :=
  let v := w % 2 ^ nbits
  if v < 2 ^ 18 then
    match decode (BitVec.ofNat 18 v) with
    | .command i => some i
    | .illegal _ => none
  else none

/-- The command a checked source command stands for; refused where it is ill formed (30_encoding.md R56). -/
def assemble (c : SourceCommand) : Option Instr :=
  if c.wellFormed then
    match c.mnemonic, c.operand with
    | .init, _ => some .init
    | .refresh, some n => some (.refresh (BitVec.ofNat 16 n))
    | .refresh, none => none
  else none

/-- The source form of a command (30_encoding.md R56). -/
def disassemble : Instr → SourceCommand
  | .init => ⟨.init, none⟩
  | .refresh value => ⟨.refresh, some value.toNat⟩

end Sys2Proof
end

