-- ==== Sys2Proof/Config.lean ====
section
/-! DEFINITION. The configuration of the block, fixed for a run (00_scope.md R8, 10_state.md R28), as plain data, the
types its fields use, and the one free value of the model. -/

namespace Sys2Proof

/-- A level of a line: low (0) or high (1) (10_state.md R23, 60_exceptions.md R95). -/
inductive Level where
  | low
  | high
  deriving DecidableEq, Repr

/-- The twelve lines the block drives, under the names of 10_state.md R21: SEG_i for i in 0..6, DP, DIG_k for k in 0..3. -/
inductive Role where
  | seg (i : Fin 7)
  | dp
  | dig (k : Position)
  deriving DecidableEq, Repr

/-- A physical pin, `(port_group, pin_index)` (10_state.md R26). -/
structure Pin where
  portGroup : Nat
  pinIndex  : Nat
  deriving DecidableEq, Repr

/-- The open parameters of 00_scope.md R8. The vectors over roles are indexed by the role number of 10_state.md R21. -/
structure Config where
  /-- SYMBOL_TABLE, the contents of the symbol ROM (40_symbol_table.md R59). -/
  symbolTable      : Vector Pattern 16
  /-- DIGIT_ACTIVE_LEVEL, the level that makes a digit-select line active (10_state.md R24). -/
  digitActiveLevel : Level
  /-- DP_PRESENT, whether the decimal-point line exists (00_scope.md R8). -/
  dpPresent        : Bool
  /-- PIN_MAP, the pin that backs each role (10_state.md R26); entry 7 matters only when DP_PRESENT. -/
  pinMap           : Vector Pin 12
  /-- CONFIG_OK, the platform's answer to the configuration of each role (60_exceptions.md R95). -/
  configOk         : Vector Bool 12
  deriving DecidableEq, Repr

/-- The direction bit a role is left with when its configuration failed: "any value" (60_exceptions.md R86). A free
value, drawn by number; no proof can see it (notes/assumptions/9.md). -/
opaque Config.freeDir : Nat → Bool

end Sys2Proof
end

