-- ==== Sys2Proof/Machine/Board.lean ====
section
/-! DEFINITION. What is read from the configuration: the numbering of the lines, levels as bits, the roles in use, the
constraints on a configuration, and the reference configuration of the spec's test vectors. -/

namespace Sys2Proof

/-- The level of a bit: 1 is high, 0 is low (60_exceptions.md R95). -/
def Level.ofBit : Bool → Level
  | true => .high
  | false => .low

/-- ¬ on a level read as a bit (00_scope.md R9). -/
def Level.inverse : Level → Level
  | .low => .high
  | .high => .low

/-- The role number of 10_state.md R21. -/
def Role.number : Role → Fin 12
  | .seg i => ⟨i.val, by omega⟩
  | .dp => 7
  | .dig k => ⟨8 + k.toNat, by omega⟩

/-- SEG_A, …, SEG_G in ascending role order (41_digit_scanner.md R74, R75). -/
def segRoles : List Role := [.seg 0, .seg 1, .seg 2, .seg 3, .seg 4, .seg 5, .seg 6]

/-- The four positions in ascending order. -/
def positions : List Position := [0, 1, 2, 3]

/-- INIT_ROLES, the roles INIT configures, in its order (41_digit_scanner.md R74). They are also the roles in use, over
which PIN_MAP must be injective (10_state.md R26). -/
def initRoles (dpPresent : Bool) : List Role :=
  segRoles ++ (if dpPresent then [.dp] else []) ++ positions.map .dig

/-- WRITE_ORDER(c), the lines one REFRESH at cursor c writes, in order (41_digit_scanner.md R75). -/
def writeOrder (c : Position) : List Role :=
  segRoles ++ (positions.filter (· ≠ c)).map .dig ++ [.dig c]

namespace Config

/-- PIN_MAP(r) (10_state.md R26). -/
def pinOf (c : Config) (r : Role) : Pin := c.pinMap[r.number]

/-- CONFIG_OK(r) (60_exceptions.md R95). -/
def okOf (c : Config) (r : Role) : Bool := c.configOk[r.number]

/-- The roles the block uses under a configuration (10_state.md R26). -/
def rolesInUse (c : Config) : List Role := initRoles c.dpPresent

/-- "PIN_MAP must be injective over the roles in use" (10_state.md R26). -/
def pinMapInjective (c : Config) : Bool := decide (c.rolesInUse.map c.pinOf).Nodup

/-- SYMBOL_TABLE[9] = 0x6F: "Any SYMBOL_TABLE parameter a model is given must satisfy it" (40_symbol_table.md R60). -/
def symbolNineGiven (c : Config) : Bool := decide (c.symbolTable[9] = 0x6F#7)

/-- Whether a configuration is one the spec admits. -/
def wf (c : Config) : Bool := c.pinMapInjective && c.symbolNineGiven

/-- STD_TABLE, the reference instance of SYMBOL_TABLE (40_symbol_table.md R61). PRESUMED: the spec takes it from general
knowledge but for entry 9 (notes/assumptions/2.md). -/
def stdTable : Vector Pattern 16 :=
  #v[0x3F#7, 0x06#7, 0x5B#7, 0x4F#7, 0x66#7, 0x6D#7, 0x7D#7, 0x07#7,
     0x7F#7, 0x6F#7, 0x77#7, 0x7C#7, 0x39#7, 0x5E#7, 0x79#7, 0x71#7]

/-- The default configuration of the spec's test vectors (95_test_vectors.md, "Notation used below"). DESIGN CHOICE: the pin
map, which the spec leaves to the board, puts role r on pin r of port group 0 (notes/assumptions/3.md). -/
def reference : Config where
  symbolTable := stdTable
  digitActiveLevel := .high
  dpPresent := false
  pinMap := #v[⟨0, 0⟩, ⟨0, 1⟩, ⟨0, 2⟩, ⟨0, 3⟩, ⟨0, 4⟩, ⟨0, 5⟩, ⟨0, 6⟩, ⟨0, 7⟩, ⟨0, 8⟩, ⟨0, 9⟩, ⟨0, 10⟩, ⟨0, 11⟩]
  configOk := #v[true, true, true, true, true, true, true, true, true, true, true, true]

end Config

end Sys2Proof
end

