-- ==== Sys2Proof/Machine/State.lean ====
section
/-! DEFINITION. The state of the block (10_state.md), the reasons a step can stop, and the state after reset (R31). -/

namespace Sys2Proof.Machine

/-- The values of the 2-bit FAULT register, by name (60_exceptions.md R83); `FaultCode.code` gives the bits. -/
inductive FaultCode where
  /-- 0: no fault since reset. -/
  | none
  /-- 1, F_ILLEGAL_COMMAND (R84). -/
  | illegalCommand
  /-- 2, F_NOT_INITIALISED (R85). -/
  | notInitialised
  /-- 3, F_CONFIG_FAILED (R86). -/
  | configFailed
  deriving DecidableEq, Repr

/-- One GPIO operation of the event history (20_memory.md R44). -/
inductive GpioEvent where
  /-- `CFG(r, ok)`: a GpioConfigure(r) that returned ok. -/
  | cfg (r : Role) (ok : Bool)
  /-- `WR(r, b)`: a GpioWrite(r, b). -/
  | wr (r : Role) (b : Level)
  deriving DecidableEq, Repr

/-- What the host does to the block: it issues a command word (10_state.md R25), or the reset event happens (R27). -/
inductive HostEvent where
  | command (w : CommandWord)
  | reset
  deriving DecidableEq, Repr

/-- The whole state. `dir` and `lat` are indexed by the role number of 10_state.md R21; an unwritten latch (the spec's ⊥)
is `none`. `config` is the configuration, fixed for a run and never changed by a step (R28; notes/assumptions/1.md).
`pending` and `freeCount` are the model's own (notes/assumptions/4.md and 9.md). -/
structure State where
  /-- CURSOR (10_state.md R16). -/
  cursor    : Position
  /-- DIGBUF[0..3], index 0 the thousands digit (10_state.md R17). -/
  digbuf    : Vector Digit 4
  /-- INIT_DONE (10_state.md R19). -/
  initDone  : Bool
  /-- FAULT (10_state.md R20). -/
  fault     : FaultCode
  /-- FAULT_CMD (10_state.md R20). -/
  faultCmd  : CommandWord
  /-- DIR[0..11] (10_state.md R22). -/
  dir       : Vector Bool 12
  /-- LAT[0..11] (10_state.md R23). -/
  lat       : Vector (Option Level) 12
  /-- The event history, oldest first (20_memory.md R44). -/
  history   : List GpioEvent
  /-- The parameters of the step relation (10_state.md R28). -/
  config    : Config
  /-- What the host has issued and the block has not yet taken, oldest first (10_state.md R25, R27). -/
  pending   : List HostEvent
  /-- How many free values have been drawn (60_exceptions.md R86). -/
  freeCount : Nat
  deriving DecidableEq, Repr

/-- Why the machine stops. -/
inductive Fault where
  /-- A command offered to a block whose FAULT is not 0: "no command has a step" (60_exceptions.md R89). Raised by both
  meanings and by the step. Safe: the spec gives the command no effect. -/
  | halted (code : FaultCode)
  deriving DecidableEq, Repr

/-- Why the machine refuses to run. -/
inductive Refusal where
  /-- An instruction with no meaning yet. Raised by no arm of this model. Safe. -/
  | notModelled (mnemonic : String)
  /-- Two roles in use on one pin: "is refused" (10_state.md R26). Raised by the step. Safe: such a configuration has no
  runs. -/
  | pinMapNotInjective
  /-- SYMBOL_TABLE[9] is not 0x6F, which the parameter "must satisfy" (40_symbol_table.md R60). Raised by the step. Safe. -/
  | symbolNineNotGiven
  deriving DecidableEq, Repr

/-- The state after reset under a given configuration (10_state.md R31, 70_reset_and_hazards.md R100 and R102). -/
def State.resetWith (c : Config) : State where
  cursor := 0
  digbuf := #v[0, 0, 0, 0]
  initDone := false
  fault := .none
  faultCmd := 0
  dir := Vector.replicate 12 false
  lat := Vector.replicate 12 none
  history := []
  config := c
  pending := []
  freeCount := 0

/-- The state after reset under the reference configuration. DESIGN CHOICE: the spec leaves the configuration open
(notes/assumptions/2.md). -/
def State.reset : State := State.resetWith Config.reference

end Sys2Proof.Machine
end

