-- ==== Sys2Proof/Machine/Ops.lean ====
section
/-! DEFINITION. The operations every command is made of: access to DIR and LAT, the GPIO capability (60_exceptions.md R95),
the read of the symbol ROM (20_memory.md R32), fault entry (R88) and the reset event (70_reset_and_hazards.md R100). -/

namespace Sys2Proof.Machine

/-- DIR[r] (10_state.md R22). -/
def State.dirOf (s : State) (r : Role) : Bool := s.dir[r.number]

/-- LAT[r] (10_state.md R23); `none` is the spec's ⊥. -/
def State.latOf (s : State) (r : Role) : Option Level := s.lat[r.number]

/-- DIR[r] <- b. -/
def State.setDir (s : State) (r : Role) (b : Bool) : State :=
  { s with dir := s.dir.set r.number b }

/-- LAT[r] <- b. -/
def State.setLat (s : State) (r : Role) (b : Level) : State :=
  { s with lat := s.lat.set r.number (some b) }

/-- CURSOR <- c (10_state.md R16). -/
def State.setCursor (s : State) (c : Position) : State := { s with cursor := c }

/-- DIGBUF <- b, all four entries (10_state.md R17). -/
def State.setDigbuf (s : State) (b : Vector Digit 4) : State := { s with digbuf := b }

/-- What the host has issued and the block has not yet taken <- p (notes/assumptions/4.md). -/
def State.setPending (s : State) (p : List HostEvent) : State := { s with pending := p }

/-- Record an event of the history (20_memory.md R44). -/
def State.record (s : State) (e : GpioEvent) : State := { s with history := s.history ++ [e] }

/-- `GpioConfigure(r)` (60_exceptions.md R95). Where it returns false the role's DIR bit is any value (R86): the next free
value. -/
def gpioConfigure (r : Role) (s : State) : Bool × State :=
  if s.config.okOf r then (true, (s.setDir r true).record (.cfg r true))
  else
    (false,
      ({ s with freeCount := s.freeCount + 1 }.setDir r (Config.freeDir s.freeCount)).record (.cfg r false))

/-- `GpioWrite(r, b)` (60_exceptions.md R95). -/
def gpioWrite (r : Role) (b : Level) (s : State) : State := (s.setLat r b).record (.wr r b)

/-- The GpioConfigure calls of a list of roles, in list order, up to the first that returns false
(41_digit_scanner.md R74). -/
def configureAll : List Role → State → Bool × State
  | [], s => (true, s)
  | r :: rs, s =>
    match gpioConfigure r s with
    | (true, t) => configureAll rs t
    | (false, t) => (false, t)

/-- The GpioWrite calls of a list, in list order (41_digit_scanner.md R75). -/
def writeAll : List (Role × Level) → State → State
  | [], s => s
  | (r, b) :: ws, s => writeAll ws (gpioWrite r b s)

/-- `MemRead(d, 1)`: entry d of the symbol ROM (20_memory.md R32, 00_scope.md R10). -/
def memRead (c : Config) (d : Digit) : Pattern := c.symbolTable[d.toNat]

/-- `raise Fault(code)`: FAULT and FAULT_CMD are written and the command ends (60_exceptions.md R88). There is no handler
and no return; only reset clears them (R90). -/
def raiseFault (code : FaultCode) (cmd : CommandWord) (s : State) : State :=
  { s with fault := code, faultCmd := cmd }

/-- The reset event: every state element to its reset value, the configuration unchanged (70_reset_and_hazards.md R100,
R102). What the host has still to issue and the numbering of the free values are not the block's and stay
(notes/assumptions/12.md). -/
def resetEvent (s : State) : State :=
  { State.resetWith s.config with pending := s.pending, freeCount := s.freeCount }

/-- Why a configuration is refused, if it is (10_state.md R26, 40_symbol_table.md R60). -/
def configRefusal (c : Config) : Option Refusal :=
  if c.pinMapInjective = false then some .pinMapNotInjective
  else if c.symbolNineGiven = false then some .symbolNineNotGiven
  else none

end Sys2Proof.Machine
end

