-- ==== Sys2Proof/Machine/Flags.lean ====
section
/-! DEFINITION. The status registers. The block has no condition flags (41_digit_scanner.md R74 and R75, "Flags written:
none"); its status is INIT_DONE (10_state.md R19) and FAULT (R20). -/

namespace Sys2Proof.Machine

/-- The bits of the FAULT register (60_exceptions.md R83). -/
def FaultCode.code : FaultCode → BitVec 2
  | .none => 0
  | .illegalCommand => 1
  | .notInitialised => 2
  | .configFailed => 3

/-- The halt check: FAULT ≠ 0 (60_exceptions.md R89). -/
def State.halted (s : State) : Bool := decide (s.fault.code ≠ 0)

/-- INIT_DONE <- 1 (41_digit_scanner.md R74). -/
def setInitDone (s : State) : State := { s with initDone := true }

/-- A command has a step only while the block is not halted (60_exceptions.md R89); its effect is `k`. -/
def whenRunning (s : State) (k : State) : Host.Outcome State Fault Refusal :=
  if s.halted then .fault (.halted s.fault) else .next k

end Sys2Proof.Machine
end

