-- ==== Sys2Proof/Machine/Operands.lean ====
section
/-! DEFINITION. What REFRESH computes from its operand: DECOMPOSE, the BCD digit decoder (41_digit_scanner.md R70), LOOKUP,
the segment lookup (40_symbol_table.md R62), and the levels it writes (41_digit_scanner.md R75). -/

namespace Sys2Proof.Machine

/-- DECOMPOSE(value), the successive quotients and remainders of 41_digit_scanner.md R70: index 0 thousands, index 3 ones.
Quotient and remainder are those of the non-negative integers (00_scope.md R9). -/
def decompose (value : Value) : Vector Digit 4 :=
  let q0 := value.toNat
  let d3 := q0 % 10
  let q1 := q0 / 10
  let d2 := q1 % 10
  let q2 := q1 / 10
  let d1 := q2 % 10
  let q3 := q2 / 10
  let d0 := q3 % 10
  #v[BitVec.ofNat 4 d0, BitVec.ofNat 4 d1, BitVec.ofNat 4 d2, BitVec.ofNat 4 d3]

/-- The entry of a digit buffer at a position (10_state.md R17). -/
def digitAt (b : Vector Digit 4) (k : Position) : Digit := b[k.toNat]

/-- LOOKUP(d) (40_symbol_table.md R62). -/
def lookup (c : Config) (d : Digit) : Pattern := memRead c d

/-- The level of segment line SEG_i under a pattern: bit i (40_symbol_table.md R59, 41_digit_scanner.md R75 step 3). -/
def segLevel (p : Pattern) (i : Fin 7) : Level := .ofBit (p.getLsbD i.val)

/-- The level of digit-select line k when position c is refreshed: active if its index equals the cursor, inactive
otherwise (41_digit_scanner.md R75 step 4). -/
def digLevel (active : Level) (c k : Position) : Level := if k = c then active else active.inverse

/-- Step 3 of REFRESH: the seven segment writes, in ascending order (41_digit_scanner.md R75). -/
def segWrites (p : Pattern) : List (Role × Level) :=
  [(.seg 0, segLevel p 0), (.seg 1, segLevel p 1), (.seg 2, segLevel p 2), (.seg 3, segLevel p 3),
   (.seg 4, segLevel p 4), (.seg 5, segLevel p 5), (.seg 6, segLevel p 6)]

/-- Step 4 of REFRESH: the inactive lines in ascending order, then the active one (41_digit_scanner.md R75). -/
def digWrites (active : Level) (c : Position) : List (Role × Level) :=
  (positions.filter (· ≠ c)).map (fun k => (.dig k, digLevel active c k)) ++ [(.dig c, digLevel active c c)]

end Sys2Proof.Machine
end

