-- ==== Sys2Proof/Machine/DigitScanner.lean ====
section
/-! DEFINITION. The meanings of the two commands (41_digit_scanner.md section 4). -/

namespace Sys2Proof.Machine

/-- The body of INIT (41_digit_scanner.md R74). -/
def initBody (s : State) : State :=
  match configureAll (initRoles s.config.dpPresent) s with
  | (true, t) => setInitDone t
  | (false, t) => raiseFault .configFailed (encode .init) t

/-- INIT (41_digit_scanner.md R74). -/
def execInit (s : State) : Host.Outcome State Fault Refusal := whenRunning s (initBody s)

/-- Steps 1 to 5 of REFRESH (41_digit_scanner.md R75). -/
def refreshSteps (value : Value) (s : State) : State :=
  let digits := decompose value
  let c := s.cursor
  let p := lookup s.config (digitAt digits c)
  let s1 := s.setDigbuf digits
  let s3 := writeAll (segWrites p) s1
  let s4 := writeAll (digWrites s.config.digitActiveLevel c) s3
  s4.setCursor (c + 1)

/-- The body of REFRESH: the check of INIT_DONE, then the five steps (41_digit_scanner.md R75, 60_exceptions.md R85). -/
def refreshBody (value : Value) (s : State) : State :=
  if s.initDone then refreshSteps value s else raiseFault .notInitialised (encode (.refresh value)) s

/-- REFRESH value (41_digit_scanner.md R75). -/
def execRefresh (value : Value) (s : State) : Host.Outcome State Fault Refusal :=
  whenRunning s (refreshBody value s)

end Sys2Proof.Machine
end

