-- ==== Sys2Proof/Machine/Port.lean ====
section
/-! DEFINITION. The command port (10_state.md R25): what happens when the host issues a command word or the reset event. -/

namespace Sys2Proof.Machine

/-- A command word offered to the block, in the order of 60_exceptions.md R87: the halt check, decode, the command. -/
def runWord (w : CommandWord) (s : State) : Host.Outcome State Fault Refusal :=
  match decode w with
  | .command i => exec i s
  | .illegal _ => whenRunning s (raiseFault .illegalCommand w s)

/-- One thing the host does: a command word, or the reset event. -/
def runEvent (e : HostEvent) (s : State) : Host.Outcome State Fault Refusal :=
  match e with
  | .command w => runWord w s
  | .reset => .next (resetEvent s)

/-- The block takes what the host issued first; with nothing issued it waits and changes nothing
(70_reset_and_hazards.md R101, 60_exceptions.md R98; notes/assumptions/5.md). -/
def takeNext (s : State) : Host.Outcome State Fault Refusal :=
  match s.pending with
  | [] => .next s
  | e :: rest => runEvent e (s.setPending rest)

/-- The word the host issues before anything else it has issued. -/
def issueFirst (w : CommandWord) (s : State) : State := s.setPending (.command w :: s.pending)

end Sys2Proof.Machine
end

