-- ==== Sys2Proof/Machine/Step.lean ====
section
/-! DEFINITION. One step of the machine, and a state whose next step runs a given word. -/

namespace Sys2Proof.Machine

/-- One step: a refused configuration has no runs (10_state.md R26); otherwise the block takes the next thing the host
issued. -/
def step (s : State) : Host.Outcome State Fault Refusal :=
  match configRefusal s.config with
  | some r => .refused r
  | none => takeNext s

/-- The state in which the host issues the given command word next. It stands for the host's command stream
(notes/assumptions/4.md). -/
def State.withFetchWord (s : State) (nbits w : Nat) : State :=
  issueFirst (BitVec.ofNat 18 (w % 2 ^ nbits)) s

end Sys2Proof.Machine
end

