-- ==== Sys2Proof/Machine/Observe.lean ====
section
/-! DEFINITION. What an observer sees of a state and of the event history (10_state.md R24, R26; 20_memory.md R44). No step
reads any of it. -/

namespace Sys2Proof.Machine

/-- The observable state of a line (10_state.md R24). -/
inductive LineObs where
  /-- Z: the line is not an output. -/
  | undriven
  /-- An output at a level the model does not know: the latch is ⊥. -/
  | unknown
  /-- An output at a known level. -/
  | driven (b : Level)
  deriving DecidableEq, Repr

/-- PINOBS(r) (10_state.md R24). -/
def State.pinObs (s : State) (r : Role) : LineObs :=
  if s.dirOf r then
    match s.latOf r with
    | some b => .driven b
    | none => .unknown
  else .undriven

/-- What is seen on a physical pin: PINOBS of the role in use that PIN_MAP puts there, if any (10_state.md R26). -/
def State.observePin (s : State) (p : Pin) : Option LineObs :=
  (s.config.rolesInUse.find? fun r => decide (s.config.pinOf r = p)).map s.pinObs

/-- DIG_ACTIVE(k), `none` while LAT[8+k] = ⊥ (10_state.md R24). -/
def State.digActive (s : State) (k : Position) : Option Bool :=
  (s.latOf (.dig k)).map fun b => decide (b = s.config.digitActiveLevel)

/-- The segment lines hold the bits of a pattern (10_state.md R24, 40_symbol_table.md R59). -/
abbrev State.ShowsPattern (s : State) (p : Pattern) : Prop :=
  ∀ i : Fin 7, s.latOf (.seg i) = some (if p.getLsbD i.val then .high else .low)

/-- Digit-select line k is active and the other three are inactive (41_digit_scanner.md R76). -/
abbrev State.OnlyActive (s : State) (k : Position) : Prop :=
  ∀ j : Position, s.digActive j = some (decide (j = k))

/-- The level of a line after a list of events, from a level `b` before them: the last level written
(20_memory.md R44). -/
def levelAfter (r : Role) (b : Option Level) : List GpioEvent → Option Level
  | [] => b
  | .cfg _ _ :: es => levelAfter r b es
  | .wr q l :: es => levelAfter r (if q = r then some l else b) es

/-- The event the host makes of a command: its word (30_encoding.md R50). -/
def commandEvent (i : Instr) : HostEvent := .command (encode i)

/-- How many of a list of commands are REFRESH commands. -/
def refreshCount : List Instr → Nat
  | [] => 0
  | .init :: is => refreshCount is
  | .refresh _ :: is => refreshCount is + 1

end Sys2Proof.Machine
end

