-- ==== Sys2Proof/Safety.lean ====
section
/-! DEFINITION. What the claims speak of: when a run has not gone wrong, and the invariants of the machine. -/

namespace Sys2Proof.Machine

/-- A run that has not gone wrong: every claim takes FAULT = 0 as a premise (60_exceptions.md R89). -/
abbrev State.Running (s : State) : Prop := s.fault = .none

/-- A configuration the block accepts (10_state.md R26, 40_symbol_table.md R60). -/
abbrev Accepted (c : Config) : Prop := configRefusal c = none

/-- The platform configures every role in use (60_exceptions.md R86, the default platform). -/
abbrev AllConfigurable (c : Config) : Prop := ∀ r ∈ c.rolesInUse, c.okOf r = true

/-- What holds of the scanner between commands: the digits are decimal (41_digit_scanner.md R71), DP is never written
(10_state.md R23), after INIT the lines in use are outputs (R22), an output is a line the platform could configure, and
either no line has been written since reset or the position refreshed last is the one displayed (41_digit_scanner.md R76,
R77). -/
structure ScanInv (s : State) : Prop where
  digitsDecimal : ∀ k : Position, (digitAt s.digbuf k).toNat ≤ 9
  dpUnwritten   : s.latOf .dp = none
  configured    : s.initDone = true → ∀ r ∈ s.config.rolesInUse, s.config.okOf r = true ∧ s.dirOf r = true
  outputsAreOk  : s.fault ≠ .configFailed → ∀ r : Role, s.dirOf r = true → s.config.okOf r = true
  display       : (∀ r : Role, s.latOf r = none) ∨
    (s.initDone = true ∧ s.OnlyActive (s.cursor + 3) ∧
      s.ShowsPattern (lookup s.config (digitAt s.digbuf (s.cursor + 3))))

/-- FAULT_CMD is the word that raised FAULT, and the cause of the fault is visible in it (60_exceptions.md R83 to R86). -/
def FaultInv (s : State) : Prop :=
  match s.fault with
  | .none => s.faultCmd = 0
  | .illegalCommand => ∃ why, decode s.faultCmd = .illegal why
  | .notInitialised => (∃ v, decode s.faultCmd = .command (.refresh v)) ∧ s.initDone = false
  | .configFailed => decode s.faultCmd = .command .init ∧ s.initDone = false

/-- The event history accounts for the lines: each latch holds what was written last, and a line the platform can
configure is an output exactly when the history says so (20_memory.md R44). -/
structure HistoryInv (s : State) : Prop where
  latches : ∀ r : Role, s.latOf r = levelAfter r none s.history
  outputs : ∀ r : Role, s.config.okOf r = true → (s.dirOf r = true ↔ .cfg r true ∈ s.history)

/-- At no point of a history are two digit-select lines at the active level (70_reset_and_hazards.md R107 item 3): for
every prefix of the history, at most one line's last write is the active level. -/
def NeverTwoActive (active : Level) (h : List GpioEvent) : Prop :=
  ∀ (n : Nat) (j k : Position),
    levelAfter (.dig j) none (h.take n) = some active → levelAfter (.dig k) none (h.take n) = some active → j = k

/-- A state just after reset, whatever the configuration, the host's command stream and the numbering of free values: the
reset event changes nothing (70_reset_and_hazards.md R100). -/
abbrev JustReset (s : State) : Prop := resetEvent s = s

/-- The same state on a board with another symbol table (00_scope.md R8). -/
def State.withSymbols (s : State) (T : Vector Pattern 16) : State :=
  { s with config := { s.config with symbolTable := T } }

end Sys2Proof.Machine
end

