-- ==== Sys2Proof/Certificates/Slice0/Obligations.lean ====
section
/-! DEFINITION. The statements about the block. Each docstring names the rule of spec/ it formalises. Every statement holds
for every configuration; none rests on the reference configuration of State.reset or on a free value. -/

open Sys2Proof Sys2Proof.Machine

/-! ### Encoding -/

/-- The decode vectors V-ENC of 95_test_vectors.md section 2, each word written out as OP then VALUE. -/
def Obligations.DecodeOfTheSpecsSampleWords : Prop :=
  decode 0b000000000000000000#18 = .command .init ∧
  decode 0b000000000000000001#18 = .illegal .initWithValue ∧
  decode 0b001111111111111111#18 = .illegal .initWithValue ∧
  decode 0b010000000000000000#18 = .command (.refresh 0) ∧
  decode 0b010000010011010010#18 = .command (.refresh 1234) ∧
  decode 0b011111111111111111#18 = .command (.refresh 65535) ∧
  decode 0b100000000000000000#18 = .illegal .reservedOp10 ∧
  decode 0b101010101111001101#18 = .illegal .reservedOp10 ∧
  decode 0b110000000000000000#18 = .illegal .reservedOp11 ∧
  decode 0b111111111111111111#18 = .illegal .reservedOp11

/-- R51, R52: OP (the word's high two bits) selects INIT, REFRESH or an illegal word; the operand of REFRESH is the low 16
bits as an unsigned number, neither extended nor scaled; for INIT the low 16 bits must be 0. -/
def Obligations.DecodeFollowsOpAndValue : Prop :=
  ∀ w : CommandWord,
    (decode w = .command .init ↔ w.toNat / 65536 = 0 ∧ w.toNat % 65536 = 0) ∧
    (∀ v : Value, decode w = .command (.refresh v) ↔ w.toNat / 65536 = 1 ∧ v.toNat = w.toNat % 65536) ∧
    (decode w = .illegal .initWithValue ↔ w.toNat / 65536 = 0 ∧ w.toNat % 65536 ≠ 0) ∧
    (decode w = .illegal .reservedOp10 ↔ w.toNat / 65536 = 2) ∧
    (decode w = .illegal .reservedOp11 ↔ w.toNat / 65536 = 3)

/-- 30_encoding.md section 2 (the opcode map): a word decodes to a command exactly when it is that command's word. -/
def Obligations.DecodeAndEncodeAgree : Prop :=
  ∀ (w : CommandWord) (i : Instr), decode w = .command i ↔ encode i = w

/-- The opcode map as match and mask (30_encoding.md section 2): each row of the table holds exactly the words of its
command, and the two rows do not meet. -/
def Obligations.OpcodeRowsMatchTheDecoder : Prop :=
  ∀ w : CommandWord,
    (w &&& 0x3FFFF#18 = 0x00000#18 ↔ decode w = .command .init) ∧
    (w &&& 0x30000#18 = 0x10000#18 ↔ ∃ v, decode w = .command (.refresh v)) ∧
    ¬(w &&& 0x3FFFF#18 = 0x00000#18 ∧ w &&& 0x30000#18 = 0x10000#18)

/-- 30_encoding.md section 3: the assembler accepts exactly the source forms of the two commands (INIT without an operand,
REFRESH with one in 0..65535), and `INIT` is 0x00000, `REFRESH v` is 0x10000 | v. -/
def Obligations.AssemblerAcceptsExactlyTheCommands : Prop :=
  (∀ (c : SourceCommand) (i : Instr), assemble c = some i ↔ c = disassemble i) ∧
  (∀ n : Nat, (assemble ⟨.refresh, some n⟩ = none ↔ 65535 < n)) ∧
  (∀ n : Nat, assemble ⟨.init, some n⟩ = none) ∧
  encode .init = 0x00000#18 ∧
  (∀ v : Value, encode (.refresh v) = 0x10000#18 ||| v.setWidth 18)

/-! ### The step -/

/-- A step runs the decoded command: where the host's next word decodes to a command, the step is that command's meaning on
the state with the word taken from what the host issued. -/
def Obligations.StepRunsTheDecodedCommand : Prop :=
  ∀ (s : State) (w : CommandWord) (rest : List HostEvent) (i : Instr),
    Accepted s.config → s.pending = .command w :: rest → decode w = .command i →
      step s = exec i (s.setPending rest)

/-- The model's choice (notes/assumptions/5.md): with nothing issued a step changes nothing. The spec says that the block
waits and its lines keep their values (60_exceptions.md section 5). -/
def Obligations.WaitingChangesNothing : Prop :=
  ∀ s : State, Accepted s.config → s.pending = [] → step s = .next s

/-- R84: an illegal word raises F_ILLEGAL_COMMAND before it does anything, so only FAULT and FAULT_CMD change. -/
def Obligations.IllegalWordRaisesItsFault : Prop :=
  ∀ (s : State) (w : CommandWord) (rest : List HostEvent),
    Accepted s.config → s.Running → s.pending = .command w :: rest →
      (w.toNat / 65536 = 2 ∨ w.toNat / 65536 = 3 ∨ (w.toNat / 65536 = 0 ∧ w.toNat % 65536 ≠ 0)) →
        step s = .next { s with pending := rest, fault := .illegalCommand, faultCmd := w }

/-- R85: REFRESH with INIT_DONE = 0 raises F_NOT_INITIALISED before step 1; FAULT_CMD is the word; nothing else changes. -/
def Obligations.RefreshBeforeInitFaults : Prop :=
  ∀ (s : State) (v : Value), s.Running → s.initDone = false →
    exec (.refresh v) s = .next { s with fault := .notInitialised, faultCmd := 0x10000#18 ||| v.setWidth 18 }

/-- R86: INIT where the platform cannot configure a role. The roles before it (in INIT_ROLES order) are outputs, the later
roles and the roles INIT does not configure keep their DIR, INIT_DONE is unchanged, and FAULT records the failure; of the
failing role's DIR nothing is said. On a platform that configures every role this fault does not occur. -/
def Obligations.FailedConfigurationHaltsInit : Prop :=
  (∀ (s : State) (pre post : List Role) (q : Role), s.Running →
    s.config.rolesInUse = pre ++ q :: post → (∀ r ∈ pre, s.config.okOf r = true) → s.config.okOf q = false →
      ∃ t, exec .init s = .next t ∧
        (∀ r ∈ pre, t.dirOf r = true) ∧
        (∀ r : Role, r ∉ pre → r ≠ q → t.dirOf r = s.dirOf r) ∧
        t.initDone = s.initDone ∧ t.fault = .configFailed ∧ t.faultCmd = 0x00000#18 ∧
        t.history = s.history ++ pre.map (GpioEvent.cfg · true) ++ [.cfg q false] ∧
        t.cursor = s.cursor ∧ t.digbuf = s.digbuf ∧ t.lat = s.lat ∧ t.config = s.config ∧ t.pending = s.pending) ∧
  (∀ s t : State, (∀ r : Role, s.config.okOf r = true) → exec .init s = .next t → t.fault ≠ .configFailed)

/-- R87 (with the codes of R83): the halt check comes first, then decode, then the command's own fault: REFRESH's
F_NOT_INITIALISED, or INIT's F_CONFIG_FAILED at the first failing role. -/
def Obligations.FaultsAreCheckedInOrder : Prop :=
  ∀ (s : State) (w : CommandWord) (rest : List HostEvent), Accepted s.config → s.pending = .command w :: rest →
    (s.fault.code ≠ 0 → step s = .fault (.halted s.fault)) ∧
    (s.fault.code = 0 →
      (∀ why, decode w = .illegal why → ∃ t, step s = .next t ∧ t.fault.code = 1) ∧
      (∀ v, decode w = .command (.refresh v) →
        ∃ t, step s = .next t ∧ t.fault.code = if s.initDone then 0 else 2) ∧
      (decode w = .command .init → (∀ r ∈ s.config.rolesInUse, s.config.okOf r = true) →
        ∃ t, step s = .next t ∧ t.fault.code = 0) ∧
      (∀ q, decode w = .command .init → s.config.rolesInUse.find? (fun r => !s.config.okOf r) = some q →
        ∃ t, step s = .next t ∧ t.fault.code = 3 ∧ t.history.getLast? = some (.cfg q false)))

/-- 60_exceptions.md section 2 (halt): while FAULT is not 0, neither command has a step, and no command word offered to the
block is taken. -/
def Obligations.HaltedBlockTakesNoCommand : Prop :=
  ∀ s : State, ¬ s.Running →
    (∀ i : Instr, exec i s = .fault (.halted s.fault)) ∧
    (∀ (w : CommandWord) (rest : List HostEvent), Accepted s.config → s.pending = .command w :: rest →
      step s = .fault (.halted s.fault))

/-- R90: the fault registers change only where a command word faults, which needs FAULT = 0 before (so faults do not nest),
and at the reset event, which alone clears them. -/
def Obligations.OnlyResetClearsAFault : Prop :=
  ∀ s t : State, step s = .next t →
    (t.fault = s.fault ∧ t.faultCmd = s.faultCmd) ∨
    (∃ w rest, s.pending = .command w :: rest ∧ s.fault = .none ∧ t.fault ≠ .none ∧ t.faultCmd = w) ∨
    (∃ rest, s.pending = .reset :: rest ∧ t.fault = .none ∧ t.faultCmd = 0)

/-! ### INIT -/

/-- INIT completes (41_digit_scanner.md section 4): where the block is not halted and every role in use can be configured,
every segment line and every digit-select line is an output, and DP too exactly when it is present; INIT_DONE is 1; the
calls are recorded in order; nothing else changes. -/
def Obligations.InitMakesTheLinesOutputs : Prop :=
  ∀ s : State, s.Running → AllConfigurable s.config →
    ∃ t, exec .init s = .next t ∧
      (∀ i : Fin 7, t.dirOf (.seg i) = true) ∧ (∀ k : Position, t.dirOf (.dig k) = true) ∧
      t.dirOf .dp = (if s.config.dpPresent then true else s.dirOf .dp) ∧
      t.initDone = true ∧
      t.history = s.history ++
        ((List.finRange 7).map (fun i => GpioEvent.cfg (.seg i) true) ++
          (if s.config.dpPresent then [.cfg .dp true] else []) ++
          [.cfg (.dig 0) true, .cfg (.dig 1) true, .cfg (.dig 2) true, .cfg (.dig 3) true]) ∧
      t.cursor = s.cursor ∧ t.digbuf = s.digbuf ∧ t.lat = s.lat ∧ t.fault = .none ∧ t.faultCmd = s.faultCmd ∧
      t.config = s.config ∧ t.pending = s.pending ∧ t.freeCount = s.freeCount

/-- The frame of INIT on every path, a failing configuration too: it writes neither CURSOR, DIGBUF nor LAT (90_conflicts.md
C4), no DIR bit of a line not in use, and it never clears INIT_DONE. -/
def Obligations.InitLeavesTheScanAlone : Prop :=
  ∀ s t : State, exec .init s = .next t →
    t.cursor = s.cursor ∧ t.digbuf = s.digbuf ∧ t.lat = s.lat ∧ t.config = s.config ∧ t.pending = s.pending ∧
    (s.config.dpPresent = false → t.dirOf .dp = s.dirOf .dp) ∧
    (s.initDone = true → t.initDone = true) ∧
    (t.fault = .none → t.faultCmd = s.faultCmd ∧ t.freeCount = s.freeCount)

/-- INIT is idempotent (41_digit_scanner.md section 4, 20_memory.md section 4): after an INIT that completed, another
completes and changes nothing but the record of its calls. -/
def Obligations.InitAgainChangesNothing : Prop :=
  ∀ s t : State, exec .init s = .next t → t.Running →
    exec .init t = .next { t with history := t.history ++ t.config.rolesInUse.map (GpioEvent.cfg · true) }

/-! ### REFRESH -/

/-- REFRESH completes (41_digit_scanner.md section 4): DIGBUF holds the four decimal digits of the value, thousands first;
the segment lines hold the bits of the symbol of the digit at the cursor; the digit-select line of the cursor is active and
the others are not; CURSOR advances modulo 4; nothing else changes but the record of the writes. -/
def Obligations.RefreshShowsTheDigitAtTheCursor : Prop :=
  ∀ (s : State) (v : Value), s.Running → s.initDone = true →
    ∃ t, exec (.refresh v) s = .next t ∧
      (digitAt t.digbuf 0).toNat = v.toNat / 1000 % 10 ∧ (digitAt t.digbuf 1).toNat = v.toNat / 100 % 10 ∧
      (digitAt t.digbuf 2).toNat = v.toNat / 10 % 10 ∧ (digitAt t.digbuf 3).toNat = v.toNat % 10 ∧
      (∀ i : Fin 7, t.latOf (.seg i) =
        some (if (s.config.symbolTable[(digitAt t.digbuf s.cursor).toNat]).getLsbD i.val then .high else .low)) ∧
      t.latOf (.dig s.cursor) = some s.config.digitActiveLevel ∧
      (∀ k : Position, k ≠ s.cursor → t.latOf (.dig k) = some s.config.digitActiveLevel.inverse) ∧
      t.latOf .dp = s.latOf .dp ∧
      t.cursor.toNat = (s.cursor.toNat + 1) % 4 ∧
      t.dir = s.dir ∧ t.initDone = true ∧ t.fault = .none ∧ t.faultCmd = s.faultCmd ∧
      t.config = s.config ∧ t.pending = s.pending ∧ t.freeCount = s.freeCount

/-- The frame of REFRESH on every path: it writes no DIR bit, not INIT_DONE, not LAT[7]; where it faults it changes FAULT
and FAULT_CMD only (41_digit_scanner.md section 4, 60_exceptions.md section 2). -/
def Obligations.RefreshFrame : Prop :=
  ∀ (s t : State) (v : Value), exec (.refresh v) s = .next t →
    t.dir = s.dir ∧ t.initDone = s.initDone ∧ t.latOf .dp = s.latOf .dp ∧ t.config = s.config ∧
    t.pending = s.pending ∧ t.freeCount = s.freeCount ∧
    (t.fault ≠ .none → t.cursor = s.cursor ∧ t.digbuf = s.digbuf ∧ t.lat = s.lat ∧ t.history = s.history)

/-- 20_memory.md section 7: the writes of one REFRESH in order: SEG_A to SEG_G, the three inactive digit-select lines in
ascending order, the active line last. -/
def Obligations.RefreshWritesInOrder : Prop :=
  ∀ (s t : State) (v : Value), exec (.refresh v) s = .next t → t.Running →
    t.history = s.history ++
      ((List.finRange 7).map (fun i => GpioEvent.wr (.seg i)
          (if (s.config.symbolTable[(digitAt t.digbuf s.cursor).toNat]).getLsbD i.val then .high else .low)) ++
        ([0, 1, 2, 3].filter (fun k : Position => k ≠ s.cursor)).map
          (fun k => GpioEvent.wr (.dig k) s.config.digitActiveLevel.inverse) ++
        [.wr (.dig s.cursor) s.config.digitActiveLevel])

/-- R71: every digit of DECOMPOSE is in 0..9, so no step puts another into DIGBUF; the digits of a value up to 9999 make it
up again; a value decomposes as its remainder modulo 10000 does. -/
def Obligations.DecomposeLaws : Prop :=
  (∀ (v : Value) (k : Position), (digitAt (decompose v) k).toNat ≤ 9) ∧
  (∀ v : Value, v.toNat ≤ 9999 →
    1000 * (digitAt (decompose v) 0).toNat + 100 * (digitAt (decompose v) 1).toNat +
      10 * (digitAt (decompose v) 2).toNat + (digitAt (decompose v) 3).toNat = v.toNat) ∧
  (∀ v : Value, decompose v = decompose (BitVec.ofNat 16 (v.toNat % 10000))) ∧
  (∀ s t : State, (∀ k, (digitAt s.digbuf k).toNat ≤ 9) → step s = .next t → ∀ k, (digitAt t.digbuf k).toNat ≤ 9)

/-- R77: the pattern a REFRESH puts on the segment lines is the symbol of the digit, and two REFRESH commands that refresh
equal digits, at whatever positions, put equal levels on the segment lines. -/
def Obligations.PatternDependsOnTheDigitAlone : Prop :=
  ∀ (s s' t t' : State) (v v' : Value),
    exec (.refresh v) s = .next t → t.Running → exec (.refresh v') s' = .next t' → t'.Running →
    s.config.symbolTable = s'.config.symbolTable →
    digitAt t.digbuf s.cursor = digitAt t'.digbuf s'.cursor →
      t.ShowsPattern (s.config.symbolTable[(digitAt t.digbuf s.cursor).toNat]) ∧
      ∀ i : Fin 7, t.latOf (.seg i) = t'.latOf (.seg i)

/-- R65: no command changes the latch of DP, and none writes its line at all. -/
def Obligations.DecimalPointIsNeverDriven : Prop :=
  ∀ (i : Instr) (s t : State), exec i s = .next t →
    t.latOf .dp = s.latOf .dp ∧
    ∃ new : List GpioEvent, t.history = s.history ++ new ∧ ∀ b : Level, GpioEvent.wr .dp b ∉ new

/-- 41_digit_scanner.md section 5 (the digit-select invariant, which the spec derives): after a REFRESH that completes
exactly the line refreshed last, the one before CURSOR, is active; an INIT after it, faulting or not, leaves it so. -/
def Obligations.ExactlyOneLineActiveAfterRefresh : Prop :=
  ∀ (s t : State) (v : Value), exec (.refresh v) s = .next t → t.Running →
    t.OnlyActive (t.cursor + 3) ∧
    ∀ u : State, exec .init t = .next u → u.OnlyActive (u.cursor + 3)

/-- R66: of the symbol ROM only entries 0 to 9 matter: with other entries 10 to 15 each command does the same, and REFRESH
leaves only digits up to 9 in DIGBUF. -/
def Obligations.OnlyDecimalSymbolsAreReached : Prop :=
  (∀ (i : Instr) (s t : State) (T : Vector Pattern 16),
    (∀ d : Digit, d.toNat ≤ 9 → T[d.toNat] = s.config.symbolTable[d.toNat]) →
    exec i s = .next t →
      exec i (s.withSymbols T) = .next (t.withSymbols T)) ∧
  (∀ (s t : State) (v : Value) (k : Position), exec (.refresh v) s = .next t → t.Running →
    (digitAt t.digbuf k).toNat ≤ 9)

/-- The given entry of the symbol ROM (40_symbol_table.md section 1): wherever a step runs, entry 9 is 0x6F, and a REFRESH
that comes upon a digit 9 lights A, B, C, D, F and G and leaves E dark. -/
def Obligations.NineShowsItsPattern : Prop :=
  ∀ s t : State, step s = .next t →
    lookup s.config 9 = 0x6F#7 ∧
    ∀ (v : Value) (rest : List HostEvent), s.pending = .command (0x10000#18 ||| v.setWidth 18) :: rest →
      t.Running → digitAt t.digbuf s.cursor = 9 →
        ∀ i : Fin 7, t.latOf (.seg i) = some (if i = 4 then .low else .high)

/-! ### Registers over a step -/

/-- R72: CURSOR advances modulo 4 on every REFRESH that does not fault, is 0 after the reset event, and no other step
changes it. -/
def Obligations.CursorMovesOnlyOnRefresh : Prop :=
  ∀ s t : State, step s = .next t →
    (∀ w rest v, s.pending = .command w :: rest → decode w = .command (.refresh v) → t.fault = .none →
      t.cursor.toNat = (s.cursor.toNat + 1) % 4) ∧
    (∀ rest, s.pending = .reset :: rest → t.cursor = 0) ∧
    ((s.pending = [] ∨ ∃ w rest, s.pending = .command w :: rest ∧
        (t.fault ≠ .none ∨ ∀ v, decode w ≠ .command (.refresh v))) → t.cursor = s.cursor)

/-- R19: INIT_DONE becomes 1 exactly where an INIT completes without fault and is cleared by the reset event only; REFRESH
reads it. -/
def Obligations.InitDoneRecordsACompletedInit : Prop :=
  ∀ s t : State, step s = .next t →
    (∀ w rest, s.pending = .command w :: rest → decode w = .command .init → t.fault = .none → t.initDone = true) ∧
    (∀ w rest v, s.pending = .command w :: rest → decode w = .command (.refresh v) →
      (t.fault = .none ↔ s.initDone = true)) ∧
    (∀ rest, s.pending = .reset :: rest → t.initDone = false) ∧
    (t.initDone ≠ s.initDone →
      (∃ w rest, s.pending = .command w :: rest ∧ decode w = .command .init ∧ t.fault = .none) ∨
      ∃ rest, s.pending = .reset :: rest)

/-- R22: INIT sets DIR of every line it configures, and one that completes configures all in use; no command clears a DIR bit (in states that meet the
invariant ScanInv); DIR[7] changes only when DP is present. -/
def Obligations.DirectionBitsOnlyRise : Prop :=
  ∀ (i : Instr) (s t : State), ScanInv s → exec i s = .next t →
    (∀ new, t.history = s.history ++ new → ∀ r : Role, .cfg r true ∈ new → t.dirOf r = true) ∧
    (i = .init → t.fault = .none → ∀ r ∈ s.config.rolesInUse, t.dirOf r = true) ∧
    (∀ r : Role, s.dirOf r = true → t.dirOf r = true) ∧
    (s.config.dpPresent = false → t.dirOf .dp = s.dirOf .dp)

/-- R23: a REFRESH that completes writes all eleven latches but DP's; INIT writes none; DP's is written by no command. -/
def Obligations.OnlyRefreshWritesLatches : Prop :=
  ∀ s t : State,
    (∀ v, exec (.refresh v) s = .next t → t.Running → ∃ new : List GpioEvent, t.history = s.history ++ new ∧
      ∀ r : Role, r ≠ .dp → ∃ b, .wr r b ∈ new ∧ t.latOf r = some b) ∧
    (exec .init s = .next t → t.lat = s.lat) ∧
    (∀ i, exec i s = .next t → t.latOf .dp = s.latOf .dp)

/-- R63, R102: no step, the reset event among them, changes the symbol table or any other part of the configuration. -/
def Obligations.NoStepChangesTheConfiguration : Prop :=
  ∀ s t : State, step s = .next t → t.config = s.config

/-- 41_digit_scanner.md section 1 (bounded work): INIT makes 11 configuration calls, 12 with DP; REFRESH 11 writes; a
command that faults makes no more. -/
def Obligations.CommandsDoBoundedWork : Prop :=
  ∀ (i : Instr) (s t : State), exec i s = .next t →
    ∃ new : List GpioEvent, t.history = s.history ++ new ∧ new.length ≤ 12 ∧
      (t.fault = .none → i = .init → new.length = if s.config.dpPresent then 12 else 11) ∧
      (∀ v, t.fault = .none → i = .refresh v → new.length = 11) ∧
      (∀ v, t.fault ≠ .none → i = .refresh v → new = [])

/-! ### Reset and configuration -/

/-- R31: the value of every state element after reset, under every configuration; the symbol ROM is the configuration's
table. State.reset is such a state. -/
def Obligations.ResetValues : Prop :=
  (∀ c : Config,
    (State.resetWith c).cursor = 0 ∧ (∀ k, digitAt (State.resetWith c).digbuf k = 0) ∧
    (State.resetWith c).initDone = false ∧ (State.resetWith c).fault.code = 0 ∧ (State.resetWith c).faultCmd = 0 ∧
    (∀ r, (State.resetWith c).dirOf r = false) ∧ (∀ r, (State.resetWith c).latOf r = none) ∧
    ∀ d, lookup (State.resetWith c).config d = c.symbolTable[d.toNat]) ∧
  ∃ c, State.reset = State.resetWith c

/-- R100: the reset event gives every state element its reset value, in every state, a halted one too. (That the event
history starts anew is the model's choice, notes/assumptions/11.md, and not claimed here.) -/
def Obligations.ResetEventRestoresEveryElement : Prop :=
  ∀ (s : State) (rest : List HostEvent), Accepted s.config → s.pending = .reset :: rest →
    ∃ t, step s = .next t ∧ t.cursor = 0 ∧ t.digbuf = #v[0, 0, 0, 0] ∧ t.initDone = false ∧
      t.fault = .none ∧ t.faultCmd = 0 ∧ (∀ r, t.dirOf r = false) ∧ (∀ r, t.latOf r = none) ∧
      t.config = s.config ∧ t.pending = rest

/-- A configuration with two roles in use on one pin is refused (10_state.md section 4), and so is one whose entry 9 is not
the given pattern (40_symbol_table.md section 1; refusing it is the model's reading, notes/assumptions/8.md). -/
def Obligations.BadConfigurationsAreRefused : Prop :=
  (∀ (s : State) (r q : Role), r ∈ s.config.rolesInUse → q ∈ s.config.rolesInUse → r ≠ q →
    s.config.pinOf r = s.config.pinOf q → step s = .refused .pinMapNotInjective) ∧
  (∀ s : State, s.config.symbolTable[9] ≠ 0x6F#7 → ∃ why, step s = .refused why) ∧
  (∀ s : State, (∀ r ∈ s.config.rolesInUse, ∀ q ∈ s.config.rolesInUse, s.config.pinOf r = s.config.pinOf q → r = q) →
    s.config.symbolTable[9] = 0x6F#7 → ∀ why, step s ≠ .refused why)

/-- 10_state.md sections 3 and 4: on the pin of a role in use an observer sees that role: undriven while it is not an
output, unknown while it is one whose latch is unwritten, else its level. -/
def Obligations.PinsShowTheirRole : Prop :=
  ∀ (s : State) (r : Role), Accepted s.config → r ∈ s.config.rolesInUse →
    s.observePin (s.config.pinOf r) = some (s.pinObs r) ∧
    (s.dirOf r = false → s.pinObs r = .undriven) ∧
    (s.dirOf r = true → s.latOf r = none → s.pinObs r = .unknown) ∧
    (∀ b, s.dirOf r = true → s.latOf r = some b → s.pinObs r = .driven b)

/-- 70_reset_and_hazards.md section 2 (which the spec derives): after reset every line is undriven; after INIT every line in
use is driven to an unknown level; after the first REFRESH every line in use but DP is at a known level, and exactly one
digit-select line is active. -/
def Obligations.DisplayDuringBoot : Prop :=
  ∀ (s : State) (v : Value), JustReset s → AllConfigurable s.config →
    (∀ r, s.pinObs r = .undriven) ∧
    ∃ t u, exec .init s = .next t ∧ exec (.refresh v) t = .next u ∧
      (∀ r ∈ s.config.rolesInUse, t.pinObs r = .unknown) ∧
      (∀ r ∈ s.config.rolesInUse, r ≠ .dp → ∃ b, u.pinObs r = .driven b) ∧
      u.OnlyActive 0 ∧ u.cursor = 1

/-! ### Invariants -/

/-- The invariants of the machine hold just after reset, whatever the configuration and the host's command stream.
One part is the MODEL'S CHOICE and no rule of the spec: with every latch unwritten, `HistoryInv` says that the history just
after reset holds no write, which rests on the history's being empty at reset (DESIGN CHOICE, unsafe,
notes/assumptions/11.md; 10_state.md R31 lists no history). -/
def Obligations.InvariantsHoldAfterReset : Prop :=
  (∀ s : State, JustReset s →
    ScanInv s ∧ FaultInv s ∧ HistoryInv s ∧ NeverTwoActive s.config.digitActiveLevel s.history) ∧
  JustReset State.reset

/-- Every step keeps the scan invariant: decimal digits, DP unwritten, the lines in use outputs once INIT is done, and after
the first REFRESH exactly the position refreshed last active, showing the symbol of its digit. -/
def Obligations.StepKeepsTheScanInvariant : Prop :=
  ∀ s t : State, ScanInv s → step s = .next t → ScanInv t

/-- Every step keeps FAULT_CMD the word whose cause FAULT names (60_exceptions.md section 1). -/
def Obligations.StepKeepsTheFaultRecord : Prop :=
  ∀ s t : State, ScanInv s → FaultInv s → step s = .next t → FaultInv t

/-- Every step keeps the event history an account of the lines: each latch holds what the history wrote last, and DIR is
what its configurations made (20_memory.md section 7).
For the reset event this rests on the MODEL'S CHOICE, no rule of the spec, that the event empties the history (DESIGN CHOICE,
unsafe, notes/assumptions/11.md): with the latches unwritten again, it implies that no write stays in the history. -/
def Obligations.StepKeepsTheHistoryAnAccount : Prop :=
  ∀ s t : State, HistoryInv s → step s = .next t → HistoryInv t

/-- No step brings two digit-select lines to the active level at once at any point of the event history, inside a REFRESH
too (70_reset_and_hazards.md section 3, which the spec derives; the order is its decision D19). -/
def Obligations.NeverTwoLinesActiveAtThePins : Prop :=
  ∀ s t : State, NeverTwoActive s.config.digitActiveLevel s.history → step s = .next t →
    NeverTwoActive t.config.digitActiveLevel t.history

/-! ### Several commands -/

/-- The intermediate states of a REFRESH that follows one (70_reset_and_hazards.md section 3, which the spec derives): with
p the line active on entry, after its first n writes the segment lines hold the first n bits of the new pattern and the
rest of the old one; DIG_p stays active until its own inactive write; no other line is active before the last write; after
it only DIG_c is. -/
def Obligations.TransientStatesOfARefresh : Prop :=
  ∀ (s t : State) (v : Value) (old : Pattern), s.OnlyActive (s.cursor + 3) → s.ShowsPattern old →
    exec (.refresh v) s = .next t → t.Running →
      ∃ new : List GpioEvent, t.history = s.history ++ new ∧ new.length = 11 ∧
        ∀ n ≤ 11,
          (∀ i : Fin 7, levelAfter (.seg i) (s.latOf (.seg i)) (new.take n) =
            some (segLevel (if i.val < n then s.config.symbolTable[(digitAt t.digbuf s.cursor).toNat] else old) i)) ∧
          (∀ k : Position,
            levelAfter (.dig k) (s.latOf (.dig k)) (new.take n) = some s.config.digitActiveLevel ↔
              (k = s.cursor ∧ n = 11) ∨
              (k = s.cursor + 3 ∧ .wr (.dig k) s.config.digitActiveLevel.inverse ∉ new.take n))

/-- The rotation of the digits (41_digit_scanner.md section 5, which the spec derives): however many INIT and REFRESH
commands the host issues, in whatever order, an initialised block that is not halted and whose roles can be configured takes
them all, and CURSOR has advanced by the number of REFRESH commands modulo 4. -/
def Obligations.CursorCountsTheRefreshes : Prop :=
  ∀ (is : List Instr) (s : State) (rest : List HostEvent),
    Accepted s.config → AllConfigurable s.config → s.Running → s.initDone = true →
    s.pending = is.map commandEvent ++ rest →
      ∃ t, core.run is.length s = .next t ∧ t.pending = rest ∧ t.Running ∧ t.initDone = true ∧
        t.config = s.config ∧ t.cursor.toNat = (s.cursor.toNat + refreshCount is) % 4

/-- One scan of the display (41_digit_scanner.md section 5 and 70_reset_and_hazards.md section 3, which the spec derives):
over four REFRESH commands with the values v0 to v3, the position refreshed by each is the only one active after it and
shows the symbol of that position's digit of that command's value; CURSOR is back where it was. -/
def Obligations.FourRefreshesScanTheDisplay : Prop :=
  ∀ (s : State) (v : Position → Value), s.Running → s.initDone = true →
    ∃ t : Position → State,
      exec (.refresh (v 0)) s = .next (t 0) ∧ exec (.refresh (v 1)) (t 0) = .next (t 1) ∧
      exec (.refresh (v 2)) (t 1) = .next (t 2) ∧ exec (.refresh (v 3)) (t 2) = .next (t 3) ∧
      (∀ k : Position, (t k).OnlyActive (s.cursor + k) ∧
        (t k).ShowsPattern (s.config.symbolTable[(digitAt (decompose (v k)) (s.cursor + k)).toNat])) ∧
      (t 3).cursor = s.cursor

/-! ### What does not matter -/

/-- 10_state.md section 5 (which the spec derives): what DIGBUF holds between commands affects nothing but DIGBUF: from
other digits each command does the same, and after a REFRESH that completes the very same state results. -/
def Obligations.DigitBufferIsHidden : Prop :=
  ∀ (i : Instr) (s t : State) (d : Vector Digit 4), exec i s = .next t →
    ∃ t', exec i { s with digbuf := d } = .next t' ∧ t' = { t with digbuf := t'.digbuf } ∧
      (∀ v, i = .refresh v → t.Running → t' = t)

/-- 20_memory.md sections 1 and 8: no command reads DIR, LAT or the history: from other values of them each command makes
the same GPIO operations and leaves the same registers, and the latches it writes at the same levels. -/
def Obligations.TheLinesNeverFeedBack : Prop :=
  ∀ (i : Instr) (s t : State) (d : Vector Bool 12) (l : Vector (Option Level) 12) (h : List GpioEvent),
    exec i s = .next t →
      ∃ t' new, exec i { s with dir := d, lat := l, history := h } = .next t' ∧
        t.history = s.history ++ new ∧ t'.history = h ++ new ∧
        t'.cursor = t.cursor ∧ t'.digbuf = t.digbuf ∧ t'.initDone = t.initDone ∧ t'.fault = t.fault ∧
        t'.faultCmd = t.faultCmd ∧ t'.config = t.config ∧ t'.pending = t.pending ∧ t'.freeCount = t.freeCount ∧
        ∀ r b, GpioEvent.wr r b ∈ new → t'.latOf r = t.latOf r
end

