-- ==== Sys2Proof/Laws/Board.lean ====
section
/-! SUPPORT. The lines, their numbers and the lists of roles the commands run over. -/

namespace Sys2Proof

theorem Role.number_inj {r q : Role} (h : r.number.val = q.number.val) : r = q := by
  cases r <;> cases q <;> simp only [Role.number, Role.seg.injEq, Role.dig.injEq, reduceCtorEq] at h ⊢
  case seg.seg i j => exact Fin.ext h
  case dig.dig j k => exact BitVec.eq_of_toNat_eq (by omega)
  all_goals exact absurd h (by omega)

@[simp] theorem Role.number_eq_iff (r q : Role) : r.number.val = q.number.val ↔ r = q :=
  ⟨Role.number_inj, fun h => h ▸ rfl⟩

@[simp] theorem Level.inverse_ne (b : Level) : b.inverse ≠ b := by cases b <;> decide

@[simp] theorem Level.ne_inverse (b : Level) : b ≠ b.inverse := by cases b <;> decide

theorem mem_positions (k : Position) : k ∈ positions := by revert k; decide

theorem mem_segRoles (r : Role) : r ∈ segRoles ↔ ∃ i, r = .seg i := by
  constructor
  · intro h
    simp only [segRoles, List.mem_cons, List.not_mem_nil, or_false] at h
    rcases h with h | h | h | h | h | h | h <;> exact ⟨_, h⟩
  · rintro ⟨i, rfl⟩
    revert i
    decide

/-- INIT configures every segment line, every digit-select line, and DP when it is present. -/
theorem mem_initRoles (dp : Bool) (r : Role) : r ∈ initRoles dp ↔ (r = .dp → dp = true) := by
  cases r with
  | seg i => simp [initRoles, mem_segRoles]
  | dp => cases dp <;> simp [initRoles, mem_segRoles]
  | dig k => simp [initRoles, mem_positions]

theorem Config.mem_rolesInUse (c : Config) (r : Role) : r ∈ c.rolesInUse ↔ (r = .dp → c.dpPresent = true) :=
  mem_initRoles c.dpPresent r

theorem initRoles_nodup (dp : Bool) : (initRoles dp).Nodup := by cases dp <;> decide

@[simp] theorem initRoles_length (dp : Bool) : (initRoles dp).length = if dp then 12 else 11 := by
  cases dp <;> rfl

/-- WRITE_ORDER holds every line but DP, each once. -/
theorem mem_writeOrder (c : Position) (r : Role) : r ∈ writeOrder c ↔ r ≠ .dp := by
  cases r with
  | seg i => simp [writeOrder, mem_segRoles]
  | dp => simp [writeOrder, mem_segRoles]
  | dig k =>
    by_cases h : k = c <;> simp [writeOrder, mem_positions, h]

theorem writeOrder_nodup (c : Position) : (writeOrder c).Nodup := by revert c; decide

@[simp] theorem writeOrder_length (c : Position) : (writeOrder c).length = 11 := by revert c; decide

/-- What an injective pin map means: two roles in use on one pin are one role (10_state.md R26). -/
theorem Config.pinOf_inj {c : Config} (h : c.pinMapInjective = true) {r q : Role}
    (hr : r ∈ c.rolesInUse) (hq : q ∈ c.rolesInUse) (e : c.pinOf r = c.pinOf q) : r = q :=
  List.inj_on_of_nodup_map (of_decide_eq_true h) hr hq e

end Sys2Proof
end

