-- ==== Sys2Proof/Laws/Decode.lean ====
section
/-! SUPPORT. The fields of a command word, and what the decoder answers on them. -/

namespace Sys2Proof

theorem opField_toNat (w : CommandWord) : (opField w).toNat = w.toNat / 65536 := by
  have := w.isLt
  simp only [opField, BitVec.extractLsb'_toNat, Nat.shiftRight_eq_div_pow]
  omega

theorem valueField_toNat (w : CommandWord) : (valueField w).toNat = w.toNat % 65536 := by
  simp only [valueField, BitVec.extractLsb'_toNat, Nat.shiftRight_zero]

/-- A command word is its two fields. -/
theorem append_fields (w : CommandWord) : opField w ++ valueField w = w := by
  have h := BitVec.extractLsb'_append_extractLsb'_eq_extractLsb' (x := w) (start₂ := 16) (len₂ := 2)
    (start₁ := 0) (len₁ := 16) rfl
  exact h.trans BitVec.extractLsb'_eq_self

@[simp] theorem opField_append (o : BitVec 2) (v : Value) : opField (o ++ v) = o :=
  BitVec.extractLsb'_append_eq_left

@[simp] theorem valueField_append (o : BitVec 2) (v : Value) : valueField (o ++ v) = v :=
  BitVec.extractLsb'_append_eq_right

/-- No value of OP but the four of the opcode map (30_encoding.md R51). -/
theorem op_cases (o : BitVec 2) : o = 0b00#2 ∨ o = 0b01#2 ∨ o = 0b10#2 ∨ o = 0b11#2 := by
  revert o; decide

/-- Everything the decoder can answer, by the fields of the word. -/
theorem decode_cases (w : CommandWord) :
    (opField w = 0b00#2 ∧ valueField w = 0x0000#16 ∧ decode w = .command .init) ∨
    (opField w = 0b00#2 ∧ valueField w ≠ 0x0000#16 ∧ decode w = .illegal .initWithValue) ∨
    (opField w = 0b01#2 ∧ decode w = .command (.refresh (valueField w))) ∨
    (opField w = 0b10#2 ∧ decode w = .illegal .reservedOp10) ∨
    (opField w = 0b11#2 ∧ decode w = .illegal .reservedOp11) := by
  rcases op_cases (opField w) with h | h | h | h
  · by_cases hv : valueField w = 0x0000#16
    · exact .inl ⟨h, hv, by simp [decode, h, hv]⟩
    · exact .inr (.inl ⟨h, hv, by simp [decode, h, hv]⟩)
  · exact .inr (.inr (.inl ⟨h, by simp [decode, h]⟩))
  · exact .inr (.inr (.inr (.inl ⟨h, by simp [decode, h]⟩)))
  · exact .inr (.inr (.inr (.inr ⟨h, by simp [decode, h]⟩)))

@[simp] theorem decode_encode_init : decode (encode .init) = .command .init := by decide

@[simp] theorem decode_encode_refresh (v : Value) : decode (encode (.refresh v)) = .command (.refresh v) := by
  simp [decode, encode]

end Sys2Proof
end

