-- ==== Sys2Proof/Laws/State.lean ====
section
/-! SUPPORT. One lemma per field per update of State, so that no proof unfolds a record update. -/

namespace Sys2Proof.Machine

@[simp] theorem State.setDir_cursor (s : State) (r : Role) (b : Bool) : (s.setDir r b).cursor = s.cursor := rfl
@[simp] theorem State.setDir_digbuf (s : State) (r : Role) (b : Bool) : (s.setDir r b).digbuf = s.digbuf := rfl
@[simp] theorem State.setDir_initDone (s : State) (r : Role) (b : Bool) : (s.setDir r b).initDone = s.initDone := rfl
@[simp] theorem State.setDir_fault (s : State) (r : Role) (b : Bool) : (s.setDir r b).fault = s.fault := rfl
@[simp] theorem State.setDir_faultCmd (s : State) (r : Role) (b : Bool) : (s.setDir r b).faultCmd = s.faultCmd := rfl
@[simp] theorem State.setDir_dir (s : State) (r : Role) (b : Bool) : (s.setDir r b).dir = s.dir.set r.number b := rfl
@[simp] theorem State.setDir_lat (s : State) (r : Role) (b : Bool) : (s.setDir r b).lat = s.lat := rfl
@[simp] theorem State.setDir_history (s : State) (r : Role) (b : Bool) : (s.setDir r b).history = s.history := rfl
@[simp] theorem State.setDir_config (s : State) (r : Role) (b : Bool) : (s.setDir r b).config = s.config := rfl
@[simp] theorem State.setDir_pending (s : State) (r : Role) (b : Bool) : (s.setDir r b).pending = s.pending := rfl
@[simp] theorem State.setDir_freeCount (s : State) (r : Role) (b : Bool) : (s.setDir r b).freeCount = s.freeCount := rfl

@[simp] theorem State.setLat_cursor (s : State) (r : Role) (b : Level) : (s.setLat r b).cursor = s.cursor := rfl
@[simp] theorem State.setLat_digbuf (s : State) (r : Role) (b : Level) : (s.setLat r b).digbuf = s.digbuf := rfl
@[simp] theorem State.setLat_initDone (s : State) (r : Role) (b : Level) : (s.setLat r b).initDone = s.initDone := rfl
@[simp] theorem State.setLat_fault (s : State) (r : Role) (b : Level) : (s.setLat r b).fault = s.fault := rfl
@[simp] theorem State.setLat_faultCmd (s : State) (r : Role) (b : Level) : (s.setLat r b).faultCmd = s.faultCmd := rfl
@[simp] theorem State.setLat_dir (s : State) (r : Role) (b : Level) : (s.setLat r b).dir = s.dir := rfl
@[simp] theorem State.setLat_lat (s : State) (r : Role) (b : Level) : (s.setLat r b).lat = s.lat.set r.number (some b) := rfl
@[simp] theorem State.setLat_history (s : State) (r : Role) (b : Level) : (s.setLat r b).history = s.history := rfl
@[simp] theorem State.setLat_config (s : State) (r : Role) (b : Level) : (s.setLat r b).config = s.config := rfl
@[simp] theorem State.setLat_pending (s : State) (r : Role) (b : Level) : (s.setLat r b).pending = s.pending := rfl
@[simp] theorem State.setLat_freeCount (s : State) (r : Role) (b : Level) : (s.setLat r b).freeCount = s.freeCount := rfl

@[simp] theorem State.setCursor_cursor (s : State) (c : Position) : (s.setCursor c).cursor = c := rfl
@[simp] theorem State.setCursor_digbuf (s : State) (c : Position) : (s.setCursor c).digbuf = s.digbuf := rfl
@[simp] theorem State.setCursor_initDone (s : State) (c : Position) : (s.setCursor c).initDone = s.initDone := rfl
@[simp] theorem State.setCursor_fault (s : State) (c : Position) : (s.setCursor c).fault = s.fault := rfl
@[simp] theorem State.setCursor_faultCmd (s : State) (c : Position) : (s.setCursor c).faultCmd = s.faultCmd := rfl
@[simp] theorem State.setCursor_dir (s : State) (c : Position) : (s.setCursor c).dir = s.dir := rfl
@[simp] theorem State.setCursor_lat (s : State) (c : Position) : (s.setCursor c).lat = s.lat := rfl
@[simp] theorem State.setCursor_history (s : State) (c : Position) : (s.setCursor c).history = s.history := rfl
@[simp] theorem State.setCursor_config (s : State) (c : Position) : (s.setCursor c).config = s.config := rfl
@[simp] theorem State.setCursor_pending (s : State) (c : Position) : (s.setCursor c).pending = s.pending := rfl
@[simp] theorem State.setCursor_freeCount (s : State) (c : Position) : (s.setCursor c).freeCount = s.freeCount := rfl

@[simp] theorem State.setDigbuf_cursor (s : State) (b : Vector Digit 4) : (s.setDigbuf b).cursor = s.cursor := rfl
@[simp] theorem State.setDigbuf_digbuf (s : State) (b : Vector Digit 4) : (s.setDigbuf b).digbuf = b := rfl
@[simp] theorem State.setDigbuf_initDone (s : State) (b : Vector Digit 4) : (s.setDigbuf b).initDone = s.initDone := rfl
@[simp] theorem State.setDigbuf_fault (s : State) (b : Vector Digit 4) : (s.setDigbuf b).fault = s.fault := rfl
@[simp] theorem State.setDigbuf_faultCmd (s : State) (b : Vector Digit 4) : (s.setDigbuf b).faultCmd = s.faultCmd := rfl
@[simp] theorem State.setDigbuf_dir (s : State) (b : Vector Digit 4) : (s.setDigbuf b).dir = s.dir := rfl
@[simp] theorem State.setDigbuf_lat (s : State) (b : Vector Digit 4) : (s.setDigbuf b).lat = s.lat := rfl
@[simp] theorem State.setDigbuf_history (s : State) (b : Vector Digit 4) : (s.setDigbuf b).history = s.history := rfl
@[simp] theorem State.setDigbuf_config (s : State) (b : Vector Digit 4) : (s.setDigbuf b).config = s.config := rfl
@[simp] theorem State.setDigbuf_pending (s : State) (b : Vector Digit 4) : (s.setDigbuf b).pending = s.pending := rfl
@[simp] theorem State.setDigbuf_freeCount (s : State) (b : Vector Digit 4) : (s.setDigbuf b).freeCount = s.freeCount := rfl

@[simp] theorem State.setPending_cursor (s : State) (p : List HostEvent) : (s.setPending p).cursor = s.cursor := rfl
@[simp] theorem State.setPending_digbuf (s : State) (p : List HostEvent) : (s.setPending p).digbuf = s.digbuf := rfl
@[simp] theorem State.setPending_initDone (s : State) (p : List HostEvent) : (s.setPending p).initDone = s.initDone := rfl
@[simp] theorem State.setPending_fault (s : State) (p : List HostEvent) : (s.setPending p).fault = s.fault := rfl
@[simp] theorem State.setPending_faultCmd (s : State) (p : List HostEvent) : (s.setPending p).faultCmd = s.faultCmd := rfl
@[simp] theorem State.setPending_dir (s : State) (p : List HostEvent) : (s.setPending p).dir = s.dir := rfl
@[simp] theorem State.setPending_lat (s : State) (p : List HostEvent) : (s.setPending p).lat = s.lat := rfl
@[simp] theorem State.setPending_history (s : State) (p : List HostEvent) : (s.setPending p).history = s.history := rfl
@[simp] theorem State.setPending_config (s : State) (p : List HostEvent) : (s.setPending p).config = s.config := rfl
@[simp] theorem State.setPending_pending (s : State) (p : List HostEvent) : (s.setPending p).pending = p := rfl
@[simp] theorem State.setPending_freeCount (s : State) (p : List HostEvent) : (s.setPending p).freeCount = s.freeCount := rfl

@[simp] theorem State.record_cursor (s : State) (e : GpioEvent) : (s.record e).cursor = s.cursor := rfl
@[simp] theorem State.record_digbuf (s : State) (e : GpioEvent) : (s.record e).digbuf = s.digbuf := rfl
@[simp] theorem State.record_initDone (s : State) (e : GpioEvent) : (s.record e).initDone = s.initDone := rfl
@[simp] theorem State.record_fault (s : State) (e : GpioEvent) : (s.record e).fault = s.fault := rfl
@[simp] theorem State.record_faultCmd (s : State) (e : GpioEvent) : (s.record e).faultCmd = s.faultCmd := rfl
@[simp] theorem State.record_dir (s : State) (e : GpioEvent) : (s.record e).dir = s.dir := rfl
@[simp] theorem State.record_lat (s : State) (e : GpioEvent) : (s.record e).lat = s.lat := rfl
@[simp] theorem State.record_history (s : State) (e : GpioEvent) : (s.record e).history = s.history ++ [e] := rfl
@[simp] theorem State.record_config (s : State) (e : GpioEvent) : (s.record e).config = s.config := rfl
@[simp] theorem State.record_pending (s : State) (e : GpioEvent) : (s.record e).pending = s.pending := rfl
@[simp] theorem State.record_freeCount (s : State) (e : GpioEvent) : (s.record e).freeCount = s.freeCount := rfl

@[simp] theorem raiseFault_cursor (c : FaultCode) (w : CommandWord) (s : State) : (raiseFault c w s).cursor = s.cursor := rfl
@[simp] theorem raiseFault_digbuf (c : FaultCode) (w : CommandWord) (s : State) : (raiseFault c w s).digbuf = s.digbuf := rfl
@[simp] theorem raiseFault_initDone (c : FaultCode) (w : CommandWord) (s : State) : (raiseFault c w s).initDone = s.initDone := rfl
@[simp] theorem raiseFault_fault (c : FaultCode) (w : CommandWord) (s : State) : (raiseFault c w s).fault = c := rfl
@[simp] theorem raiseFault_faultCmd (c : FaultCode) (w : CommandWord) (s : State) : (raiseFault c w s).faultCmd = w := rfl
@[simp] theorem raiseFault_dir (c : FaultCode) (w : CommandWord) (s : State) : (raiseFault c w s).dir = s.dir := rfl
@[simp] theorem raiseFault_lat (c : FaultCode) (w : CommandWord) (s : State) : (raiseFault c w s).lat = s.lat := rfl
@[simp] theorem raiseFault_history (c : FaultCode) (w : CommandWord) (s : State) : (raiseFault c w s).history = s.history := rfl
@[simp] theorem raiseFault_config (c : FaultCode) (w : CommandWord) (s : State) : (raiseFault c w s).config = s.config := rfl
@[simp] theorem raiseFault_pending (c : FaultCode) (w : CommandWord) (s : State) : (raiseFault c w s).pending = s.pending := rfl
@[simp] theorem raiseFault_freeCount (c : FaultCode) (w : CommandWord) (s : State) : (raiseFault c w s).freeCount = s.freeCount := rfl

@[simp] theorem setInitDone_cursor (s : State) : (setInitDone s).cursor = s.cursor := rfl
@[simp] theorem setInitDone_digbuf (s : State) : (setInitDone s).digbuf = s.digbuf := rfl
@[simp] theorem setInitDone_initDone (s : State) : (setInitDone s).initDone = true := rfl
@[simp] theorem setInitDone_fault (s : State) : (setInitDone s).fault = s.fault := rfl
@[simp] theorem setInitDone_faultCmd (s : State) : (setInitDone s).faultCmd = s.faultCmd := rfl
@[simp] theorem setInitDone_dir (s : State) : (setInitDone s).dir = s.dir := rfl
@[simp] theorem setInitDone_lat (s : State) : (setInitDone s).lat = s.lat := rfl
@[simp] theorem setInitDone_history (s : State) : (setInitDone s).history = s.history := rfl
@[simp] theorem setInitDone_config (s : State) : (setInitDone s).config = s.config := rfl
@[simp] theorem setInitDone_pending (s : State) : (setInitDone s).pending = s.pending := rfl
@[simp] theorem setInitDone_freeCount (s : State) : (setInitDone s).freeCount = s.freeCount := rfl

@[simp] theorem gpioWrite_cursor (r : Role) (b : Level) (s : State) : (gpioWrite r b s).cursor = s.cursor := rfl
@[simp] theorem gpioWrite_digbuf (r : Role) (b : Level) (s : State) : (gpioWrite r b s).digbuf = s.digbuf := rfl
@[simp] theorem gpioWrite_initDone (r : Role) (b : Level) (s : State) : (gpioWrite r b s).initDone = s.initDone := rfl
@[simp] theorem gpioWrite_fault (r : Role) (b : Level) (s : State) : (gpioWrite r b s).fault = s.fault := rfl
@[simp] theorem gpioWrite_faultCmd (r : Role) (b : Level) (s : State) : (gpioWrite r b s).faultCmd = s.faultCmd := rfl
@[simp] theorem gpioWrite_dir (r : Role) (b : Level) (s : State) : (gpioWrite r b s).dir = s.dir := rfl
@[simp] theorem gpioWrite_lat (r : Role) (b : Level) (s : State) : (gpioWrite r b s).lat = s.lat.set r.number (some b) := rfl
@[simp] theorem gpioWrite_history (r : Role) (b : Level) (s : State) : (gpioWrite r b s).history = s.history ++ [.wr r b] := rfl
@[simp] theorem gpioWrite_config (r : Role) (b : Level) (s : State) : (gpioWrite r b s).config = s.config := rfl
@[simp] theorem gpioWrite_pending (r : Role) (b : Level) (s : State) : (gpioWrite r b s).pending = s.pending := rfl
@[simp] theorem gpioWrite_freeCount (r : Role) (b : Level) (s : State) : (gpioWrite r b s).freeCount = s.freeCount := rfl

@[simp] theorem State.resetWith_cursor (c : Config) : (State.resetWith c).cursor = 0 := rfl
@[simp] theorem State.resetWith_digbuf (c : Config) : (State.resetWith c).digbuf = #v[0, 0, 0, 0] := rfl
@[simp] theorem State.resetWith_initDone (c : Config) : (State.resetWith c).initDone = false := rfl
@[simp] theorem State.resetWith_fault (c : Config) : (State.resetWith c).fault = .none := rfl
@[simp] theorem State.resetWith_faultCmd (c : Config) : (State.resetWith c).faultCmd = 0 := rfl
@[simp] theorem State.resetWith_dir (c : Config) : (State.resetWith c).dir = Vector.replicate 12 false := rfl
@[simp] theorem State.resetWith_lat (c : Config) : (State.resetWith c).lat = Vector.replicate 12 none := rfl
@[simp] theorem State.resetWith_history (c : Config) : (State.resetWith c).history = [] := rfl
@[simp] theorem State.resetWith_config (c : Config) : (State.resetWith c).config = c := rfl
@[simp] theorem State.resetWith_pending (c : Config) : (State.resetWith c).pending = [] := rfl
@[simp] theorem State.resetWith_freeCount (c : Config) : (State.resetWith c).freeCount = 0 := rfl

@[simp] theorem resetEvent_cursor (s : State) : (resetEvent s).cursor = 0 := rfl
@[simp] theorem resetEvent_digbuf (s : State) : (resetEvent s).digbuf = #v[0, 0, 0, 0] := rfl
@[simp] theorem resetEvent_initDone (s : State) : (resetEvent s).initDone = false := rfl
@[simp] theorem resetEvent_fault (s : State) : (resetEvent s).fault = .none := rfl
@[simp] theorem resetEvent_faultCmd (s : State) : (resetEvent s).faultCmd = 0 := rfl
@[simp] theorem resetEvent_dir (s : State) : (resetEvent s).dir = Vector.replicate 12 false := rfl
@[simp] theorem resetEvent_lat (s : State) : (resetEvent s).lat = Vector.replicate 12 none := rfl
@[simp] theorem resetEvent_history (s : State) : (resetEvent s).history = [] := rfl
@[simp] theorem resetEvent_config (s : State) : (resetEvent s).config = s.config := rfl
@[simp] theorem resetEvent_pending (s : State) : (resetEvent s).pending = s.pending := rfl
@[simp] theorem resetEvent_freeCount (s : State) : (resetEvent s).freeCount = s.freeCount := rfl

@[simp] theorem issueFirst_cursor (w : CommandWord) (s : State) : (issueFirst w s).cursor = s.cursor := rfl
@[simp] theorem issueFirst_digbuf (w : CommandWord) (s : State) : (issueFirst w s).digbuf = s.digbuf := rfl
@[simp] theorem issueFirst_initDone (w : CommandWord) (s : State) : (issueFirst w s).initDone = s.initDone := rfl
@[simp] theorem issueFirst_fault (w : CommandWord) (s : State) : (issueFirst w s).fault = s.fault := rfl
@[simp] theorem issueFirst_faultCmd (w : CommandWord) (s : State) : (issueFirst w s).faultCmd = s.faultCmd := rfl
@[simp] theorem issueFirst_dir (w : CommandWord) (s : State) : (issueFirst w s).dir = s.dir := rfl
@[simp] theorem issueFirst_lat (w : CommandWord) (s : State) : (issueFirst w s).lat = s.lat := rfl
@[simp] theorem issueFirst_history (w : CommandWord) (s : State) : (issueFirst w s).history = s.history := rfl
@[simp] theorem issueFirst_config (w : CommandWord) (s : State) : (issueFirst w s).config = s.config := rfl
@[simp] theorem issueFirst_pending (w : CommandWord) (s : State) : (issueFirst w s).pending = .command w :: s.pending := rfl
@[simp] theorem issueFirst_freeCount (w : CommandWord) (s : State) : (issueFirst w s).freeCount = s.freeCount := rfl

end Sys2Proof.Machine
end

