-- ==== Sys2Proof/Laws/Ops.lean ====
section
/-! SUPPORT. What each shared operation does, once: reads after writes of DIR and LAT, the GPIO operations, the two passes
over a list of lines, and the replay of an event history. -/

namespace Sys2Proof.Machine

/-! ### Reads after writes -/

@[simp] theorem dirOf_setDir (s : State) (r q : Role) (b : Bool) :
    (s.setDir r b).dirOf q = if r = q then b else s.dirOf q := by
  simp only [State.dirOf, State.setDir_dir, Fin.getElem_fin, Vector.getElem_set, Role.number_eq_iff]

@[simp] theorem latOf_gpioWrite (s : State) (r q : Role) (b : Level) :
    (gpioWrite r b s).latOf q = if r = q then some b else s.latOf q := by
  simp only [State.latOf, gpioWrite_lat, Fin.getElem_fin, Vector.getElem_set, Role.number_eq_iff]

@[simp] theorem dirOf_setPending (s : State) (p : List HostEvent) (r : Role) :
    (s.setPending p).dirOf r = s.dirOf r := rfl

@[simp] theorem latOf_setPending (s : State) (p : List HostEvent) (r : Role) :
    (s.setPending p).latOf r = s.latOf r := rfl

@[simp] theorem dirOf_raiseFault (c : FaultCode) (w : CommandWord) (s : State) (r : Role) :
    (raiseFault c w s).dirOf r = s.dirOf r := rfl

@[simp] theorem latOf_raiseFault (c : FaultCode) (w : CommandWord) (s : State) (r : Role) :
    (raiseFault c w s).latOf r = s.latOf r := rfl

@[simp] theorem dirOf_replicate (r : Role) : (Vector.replicate 12 false)[r.number] = false := by simp

theorem latOf_resetWith (c : Config) (r : Role) : (State.resetWith c).latOf r = none := by
  simp [State.latOf]

theorem dirOf_resetWith (c : Config) (r : Role) : (State.resetWith c).dirOf r = false := by
  simp [State.dirOf]

/-! ### Replay of a history -/

@[simp] theorem levelAfter_nil (r : Role) (b : Option Level) : levelAfter r b [] = b := rfl

@[simp] theorem levelAfter_cfg (r q : Role) (ok : Bool) (b : Option Level) (es : List GpioEvent) :
    levelAfter r b (.cfg q ok :: es) = levelAfter r b es := rfl

@[simp] theorem levelAfter_wr (r q : Role) (l : Level) (b : Option Level) (es : List GpioEvent) :
    levelAfter r b (.wr q l :: es) = levelAfter r (if q = r then some l else b) es := rfl

@[simp] theorem levelAfter_append (r : Role) (es fs : List GpioEvent) (b : Option Level) :
    levelAfter r b (es ++ fs) = levelAfter r (levelAfter r b es) fs := by
  induction es generalizing b with
  | nil => rfl
  | cons e es ih => cases e <;> simp [ih]

/-- Configurations write no latch. -/
theorem levelAfter_of_no_write (r : Role) (es : List GpioEvent) (b : Option Level)
    (h : ∀ l, GpioEvent.wr r l ∉ es) : levelAfter r b es = b := by
  induction es generalizing b with
  | nil => rfl
  | cons e es ih =>
    have ht : ∀ l, GpioEvent.wr r l ∉ es := fun l hl => h l (List.mem_cons_of_mem _ hl)
    cases e with
    | cfg q ok => exact ih b ht
    | wr q l =>
      have hq : q ≠ r := fun e => h l (e ▸ List.mem_cons_self)
      simp [hq, ih b ht]

/-- A line written to the same level by every write of a list that writes it at all. -/
theorem levelAfter_of_writes (r : Role) (l : Level) (es : List GpioEvent) (b : Option Level)
    (h : ∀ m, GpioEvent.wr r m ∈ es → m = l) :
    levelAfter r b es = if GpioEvent.wr r l ∈ es then some l else b := by
  induction es generalizing b with
  | nil => rfl
  | cons e es ih =>
    have ht : ∀ m, GpioEvent.wr r m ∈ es → m = l := fun m hm => h m (List.mem_cons_of_mem _ hm)
    cases e with
    | cfg q ok => simp [ih b ht]
    | wr q m =>
      by_cases hq : q = r
      · subst hq
        have := h m List.mem_cons_self
        subst this
        simp [ih _ ht]
      · have hq' : r ≠ q := fun e => hq e.symm
        simp [ih _ ht, hq, hq']

/-- A line's level was written, or is the level before the events. -/
theorem mem_of_levelAfter (r : Role) (l : Level) (es : List GpioEvent) (b : Option Level)
    (h : levelAfter r b es = some l) : GpioEvent.wr r l ∈ es ∨ b = some l := by
  induction es generalizing b with
  | nil => exact .inr h
  | cons e es ih =>
    cases e with
    | cfg q ok => exact (ih b h).imp_left (List.mem_cons_of_mem _)
    | wr q m =>
      rcases ih _ h with hm | hb
      · exact .inl (List.mem_cons_of_mem _ hm)
      · by_cases hq : q = r
        · subst hq
          simp only [if_true, Option.some.injEq] at hb
          exact .inl (hb ▸ List.mem_cons_self)
        · simp only [hq, if_false] at hb
          exact .inr hb

/-! ### The pass of writes -/

/-- The events of a list of writes. -/
def writeEvents (ws : List (Role × Level)) : List GpioEvent := ws.map fun w => .wr w.1 w.2

/-- A pass of writes changes LAT and the history, and nothing else. -/
theorem writeAll_frame (ws : List (Role × Level)) (s : State) :
    writeAll ws s = { s with lat := (writeAll ws s).lat, history := s.history ++ writeEvents ws } := by
  induction ws generalizing s with
  | nil => simp [writeAll, writeEvents]
  | cons w ws ih =>
    rw [writeAll, ih (gpioWrite w.1 w.2 s)]
    simp [gpioWrite, State.setLat, State.record, writeEvents]

/-- A pass of writes leaves each latch at what its events say. -/
theorem latOf_writeAll (ws : List (Role × Level)) (s : State) (r : Role) :
    (writeAll ws s).latOf r = levelAfter r (s.latOf r) (writeEvents ws) := by
  induction ws generalizing s with
  | nil => rfl
  | cons w ws ih => rw [writeAll, ih]; simp [writeEvents]

theorem writeAll_append (ws vs : List (Role × Level)) (s : State) :
    writeAll (ws ++ vs) s = writeAll vs (writeAll ws s) := by
  induction ws generalizing s with
  | nil => rfl
  | cons w ws ih => simp [writeAll, ih]

/-! ### The pass of configurations -/

theorem gpioConfigure_ok {r : Role} {s : State} (h : s.config.okOf r = true) :
    gpioConfigure r s = (true, (s.setDir r true).record (.cfg r true)) := by
  simp [gpioConfigure, h]

theorem gpioConfigure_failed {r : Role} {s : State} (h : s.config.okOf r = false) :
    gpioConfigure r s = (false,
      ({ s with freeCount := s.freeCount + 1 }.setDir r (Config.freeDir s.freeCount)).record (.cfg r false)) := by
  simp [gpioConfigure, h]

/-- Where every role of a list can be configured, the pass sets their DIR bits and records the calls. -/
theorem configureAll_ok (rs : List Role) (s : State) (h : ∀ r ∈ rs, s.config.okOf r = true) :
    ∃ d : Vector Bool 12,
      configureAll rs s = (true, { s with dir := d, history := s.history ++ rs.map (GpioEvent.cfg · true) }) ∧
      ∀ r : Role, d[r.number] = (decide (r ∈ rs) || s.dirOf r) := by
  induction rs generalizing s with
  | nil => exact ⟨s.dir, by simp [configureAll], by simp [State.dirOf]⟩
  | cons q rs ih =>
    have hq : s.config.okOf q = true := h q List.mem_cons_self
    obtain ⟨d, hd, hr⟩ := ih ((s.setDir q true).record (.cfg q true))
      (fun r hr => by simpa using h r (List.mem_cons_of_mem _ hr))
    refine ⟨d, ?_, fun r => ?_⟩
    · rw [configureAll, gpioConfigure_ok hq]
      simp only [hd]
      simp [State.setDir, State.record]
    · rw [hr r]
      by_cases e : q = r
      · subst e; simp [State.dirOf, State.setDir, State.record]
      · have e' : r ≠ q := fun h => e h.symm
        simp [State.dirOf, State.setDir, State.record, e, e']

/-- Where a role cannot be configured, the pass stops there: the roles before it are configured, its own DIR bit is a free
value, and nothing after it happens (60_exceptions.md R86). -/
theorem configureAll_failed (rs ps : List Role) (q : Role) (s : State) (h : ∀ r ∈ rs, s.config.okOf r = true)
    (hq : s.config.okOf q = false) :
    ∃ d : Vector Bool 12,
      configureAll (rs ++ q :: ps) s = (false,
        { s with
          dir := d, freeCount := s.freeCount + 1,
          history := s.history ++ (rs.map (GpioEvent.cfg · true) ++ [.cfg q false]) }) ∧
      ∀ r : Role, d[r.number] = if r = q then Config.freeDir s.freeCount else (decide (r ∈ rs) || s.dirOf r) := by
  induction rs generalizing s with
  | nil =>
    refine ⟨s.dir.set q.number (Config.freeDir s.freeCount), ?_, fun r => ?_⟩
    · simp [configureAll, gpioConfigure_failed hq, State.setDir, State.record]
    · by_cases e : r = q
      · subst e; simp
      · have e' : q ≠ r := fun h => e h.symm
        simp [State.dirOf, e, e']
  | cons p rs ih =>
    have hp : s.config.okOf p = true := h p List.mem_cons_self
    obtain ⟨d, hd, hr⟩ := ih ((s.setDir p true).record (.cfg p true))
      (fun r hr => by simpa using h r (List.mem_cons_of_mem _ hr)) (by simpa using hq)
    refine ⟨d, ?_, fun r => ?_⟩
    · rw [List.cons_append, configureAll, gpioConfigure_ok hp]
      simp only [hd]
      simp [State.setDir, State.record]
    · rw [hr r]
      by_cases e : r = q
      · simp [e]
      · by_cases e2 : p = r
        · subst e2; simp [e, State.dirOf, State.setDir, State.record]
        · have e3 : r ≠ p := fun h => e2 h.symm
          simp [State.dirOf, State.setDir, State.record, e, e2, e3]

/-- A list of roles can all be configured, or there is a first that cannot. -/
theorem all_ok_or_first_failure (c : Config) (rs : List Role) :
    (∀ r ∈ rs, c.okOf r = true) ∨
    ∃ pre q post, rs = pre ++ q :: post ∧ (∀ r ∈ pre, c.okOf r = true) ∧ c.okOf q = false := by
  induction rs with
  | nil => exact .inl (by simp)
  | cons p rs ih =>
    cases hp : c.okOf p with
    | false => exact .inr ⟨[], p, rs, rfl, by simp, hp⟩
    | true =>
      rcases ih with ih | ⟨pre, q, post, rfl, h1, h2⟩
      · exact .inl (by simpa [hp] using ih)
      · exact .inr ⟨p :: pre, q, post, rfl, by simpa [hp] using h1, h2⟩

/-! ### The halt check -/

@[simp] theorem halted_eq_false_iff (s : State) : s.halted = false ↔ s.fault = .none := by
  cases h : s.fault <;> simp [State.halted, h, FaultCode.code]

theorem whenRunning_running {s : State} (h : s.fault = .none) (k : State) : whenRunning s k = .next k := by
  simp [whenRunning, (halted_eq_false_iff s).mpr h]

theorem whenRunning_halted {s : State} (h : s.fault ≠ .none) (k : State) :
    whenRunning s k = .fault (.halted s.fault) := by
  cases hh : s.halted with
  | false => exact absurd ((halted_eq_false_iff s).mp hh) h
  | true => simp [whenRunning, hh]

/-- A guarded command answers a next state only when the block is not halted. -/
theorem whenRunning_next {s k t : State} (h : whenRunning s k = .next t) : s.fault = .none ∧ t = k := by
  by_cases hf : s.fault = .none
  · rw [whenRunning_running hf] at h
    exact ⟨hf, (Host.Outcome.next.inj h).symm⟩
  · rw [whenRunning_halted hf] at h
    cases h

/-! ### Refused configurations -/

theorem configRefusal_none_iff (c : Config) :
    configRefusal c = none ↔ c.pinMapInjective = true ∧ c.symbolNineGiven = true := by
  unfold configRefusal
  split
  · simp_all
  · split <;> simp_all

end Sys2Proof.Machine
end

