-- ==== Sys2Proof/Laws/DigitScanner.lean ====
section
/-! SUPPORT. What DECOMPOSE, INIT and REFRESH do, once each, and everything a command can do (`exec_next`). -/

namespace Sys2Proof.Machine

/-! ### DECOMPOSE -/

/-- The number in each place of a decimal value (41_digit_scanner.md R70, closed form). -/
def placeDigit (n : Nat) (k : Position) : Nat := n / 10 ^ (3 - k.toNat) % 10

theorem digitAt_decompose (v : Value) (k : Position) : (digitAt (decompose v) k).toNat = placeDigit v.toNat k := by
  have h : ∀ n : Nat, n % 10 % 16 = n % 10 := fun n => by omega
  have hk : k = 0 ∨ k = 1 ∨ k = 2 ∨ k = 3 := by revert k; decide
  rcases hk with rfl | rfl | rfl | rfl <;>
    simp [digitAt, decompose, placeDigit, h, Nat.div_div_eq_div_mul]

theorem placeDigit_le (n : Nat) (k : Position) : placeDigit n k ≤ 9 := by
  unfold placeDigit; omega

/-- The four digits make up the low four decimal places of the value. -/
theorem placeDigit_sum (n : Nat) :
    1000 * placeDigit n 0 + 100 * placeDigit n 1 + 10 * placeDigit n 2 + placeDigit n 3 = n % 10000 := by
  have h0 : placeDigit n 0 = n / 1000 % 10 := rfl
  have h1 : placeDigit n 1 = n / 100 % 10 := rfl
  have h2 : placeDigit n 2 = n / 10 % 10 := rfl
  have h3 : placeDigit n 3 = n % 10 := by simp [placeDigit]
  omega

/-! ### The writes of REFRESH -/

/-- The events of one REFRESH (20_memory.md R43, R44). -/
def refreshEvents (v : Value) (s : State) : List GpioEvent :=
  writeEvents (segWrites (lookup s.config (digitAt (decompose v) s.cursor)) ++
    digWrites s.config.digitActiveLevel s.cursor)

/-- REFRESH writes CURSOR, DIGBUF, LAT and the history, and nothing else (41_digit_scanner.md R75). -/
theorem refreshSteps_frame (v : Value) (s : State) :
    refreshSteps v s = { s with
      cursor := s.cursor + 1, digbuf := decompose v, lat := (refreshSteps v s).lat,
      history := s.history ++ refreshEvents v s } := by
  simp only [refreshSteps, ← writeAll_append]
  rw [writeAll_frame]
  rfl

/-- Each latch after REFRESH is what the events of the REFRESH leave it at. -/
theorem latOf_refreshSteps (v : Value) (s : State) (r : Role) :
    (refreshSteps v s).latOf r = levelAfter r (s.latOf r) (refreshEvents v s) := by
  have h := latOf_writeAll (segWrites (lookup s.config (digitAt (decompose v) s.cursor)) ++
    digWrites s.config.digitActiveLevel s.cursor) (s.setDigbuf (decompose v)) r
  rw [writeAll_append] at h
  exact h

theorem levelAfter_segWrites (p : Pattern) (r : Role) (b : Option Level) :
    levelAfter r b (writeEvents (segWrites p)) =
      match r with
      | .seg i => some (segLevel p i)
      | _ => b := by
  cases r with
  | seg i => fin_cases i <;> simp [writeEvents, segWrites]
  | dp => simp [writeEvents, segWrites]
  | dig k => simp [writeEvents, segWrites]

theorem levelAfter_digWrites (a : Level) (c : Position) (r : Role) (b : Option Level) :
    levelAfter r b (writeEvents (digWrites a c)) =
      match r with
      | .dig k => some (digLevel a c k)
      | _ => b := by
  have hc : c = 0 ∨ c = 1 ∨ c = 2 ∨ c = 3 := by revert c; decide
  cases r with
  | seg i => rcases hc with rfl | rfl | rfl | rfl <;> simp [writeEvents, digWrites, positions]
  | dp => rcases hc with rfl | rfl | rfl | rfl <;> simp [writeEvents, digWrites, positions]
  | dig k =>
    have hk : k = 0 ∨ k = 1 ∨ k = 2 ∨ k = 3 := by revert k; decide
    rcases hc with rfl | rfl | rfl | rfl <;> rcases hk with rfl | rfl | rfl | rfl <;>
      simp [writeEvents, digWrites, positions]

/-- The level a REFRESH leaves on each line, from the level before it. -/
theorem levelAfter_refreshEvents (v : Value) (s : State) (r : Role) (b : Option Level) :
    levelAfter r b (refreshEvents v s) =
      match r with
      | .seg i => some (segLevel (lookup s.config (digitAt (decompose v) s.cursor)) i)
      | .dp => b
      | .dig k => some (digLevel s.config.digitActiveLevel s.cursor k) := by
  simp only [refreshEvents, writeEvents, List.map_append, levelAfter_append]
  rw [show ∀ ws : List (Role × Level), (ws.map fun w => GpioEvent.wr w.1 w.2) = writeEvents ws from fun _ => rfl,
    show ∀ ws : List (Role × Level), (ws.map fun w => GpioEvent.wr w.1 w.2) = writeEvents ws from fun _ => rfl,
    levelAfter_digWrites, levelAfter_segWrites]
  cases r <;> rfl

@[simp] theorem latOf_refreshSteps_seg (v : Value) (s : State) (i : Fin 7) :
    (refreshSteps v s).latOf (.seg i) = some (segLevel (lookup s.config (digitAt (decompose v) s.cursor)) i) := by
  rw [latOf_refreshSteps, levelAfter_refreshEvents]

@[simp] theorem latOf_refreshSteps_dp (v : Value) (s : State) : (refreshSteps v s).latOf .dp = s.latOf .dp := by
  rw [latOf_refreshSteps, levelAfter_refreshEvents]

@[simp] theorem latOf_refreshSteps_dig (v : Value) (s : State) (k : Position) :
    (refreshSteps v s).latOf (.dig k) = some (digLevel s.config.digitActiveLevel s.cursor k) := by
  rw [latOf_refreshSteps, levelAfter_refreshEvents]

theorem refreshEvents_length (v : Value) (s : State) : (refreshEvents v s).length = 11 := by
  have h : ∀ a c, (digWrites a c).length = 4 := fun a c => by cases a <;> revert c <;> decide
  simp [refreshEvents, writeEvents, segWrites, h]

@[simp] theorem refreshSteps_cursor (v : Value) (s : State) : (refreshSteps v s).cursor = s.cursor + 1 := rfl
@[simp] theorem refreshSteps_digbuf (v : Value) (s : State) : (refreshSteps v s).digbuf = decompose v := by
  rw [refreshSteps_frame]
@[simp] theorem refreshSteps_initDone (v : Value) (s : State) : (refreshSteps v s).initDone = s.initDone := by
  rw [refreshSteps_frame]
@[simp] theorem refreshSteps_fault (v : Value) (s : State) : (refreshSteps v s).fault = s.fault := by
  rw [refreshSteps_frame]
@[simp] theorem refreshSteps_faultCmd (v : Value) (s : State) : (refreshSteps v s).faultCmd = s.faultCmd := by
  rw [refreshSteps_frame]
@[simp] theorem refreshSteps_dir (v : Value) (s : State) : (refreshSteps v s).dir = s.dir := by
  rw [refreshSteps_frame]
@[simp] theorem refreshSteps_history (v : Value) (s : State) :
    (refreshSteps v s).history = s.history ++ refreshEvents v s := by
  rw [refreshSteps_frame]
@[simp] theorem refreshSteps_config (v : Value) (s : State) : (refreshSteps v s).config = s.config := by
  rw [refreshSteps_frame]
@[simp] theorem refreshSteps_pending (v : Value) (s : State) : (refreshSteps v s).pending = s.pending := by
  rw [refreshSteps_frame]
@[simp] theorem refreshSteps_freeCount (v : Value) (s : State) : (refreshSteps v s).freeCount = s.freeCount := by
  rw [refreshSteps_frame]
@[simp] theorem dirOf_refreshSteps (v : Value) (s : State) (r : Role) :
    (refreshSteps v s).dirOf r = s.dirOf r := by
  simp [State.dirOf]

/-! ### INIT -/

/-- The DIR vectors INIT may leave when every role in use can be configured. -/
theorem initBody_ok (s : State) (h : AllConfigurable s.config) :
    ∃ d : Vector Bool 12,
      initBody s = { s with
        dir := d, initDone := true,
        history := s.history ++ s.config.rolesInUse.map (GpioEvent.cfg · true) } ∧
      ∀ r : Role, d[r.number] = (decide (r ∈ s.config.rolesInUse) || s.dirOf r) := by
  obtain ⟨d, hd, hr⟩ := configureAll_ok (initRoles s.config.dpPresent) s h
  exact ⟨d, by simp only [initBody, hd, setInitDone]; rfl, hr⟩

/-- INIT where a role cannot be configured (60_exceptions.md R86). -/
theorem initBody_failed (s : State) (pre post : List Role) (q : Role)
    (hroles : s.config.rolesInUse = pre ++ q :: post) (hpre : ∀ r ∈ pre, s.config.okOf r = true)
    (hq : s.config.okOf q = false) :
    ∃ d : Vector Bool 12,
      initBody s = { s with
        dir := d, fault := .configFailed, faultCmd := 0, freeCount := s.freeCount + 1,
        history := s.history ++ (pre.map (GpioEvent.cfg · true) ++ [.cfg q false]) } ∧
      ∀ r : Role, d[r.number] = if r = q then Config.freeDir s.freeCount else (decide (r ∈ pre) || s.dirOf r) := by
  obtain ⟨d, hd, hr⟩ := configureAll_failed pre post q s hpre hq
  refine ⟨d, ?_, hr⟩
  rw [initBody, show initRoles s.config.dpPresent = pre ++ q :: post from hroles, hd]
  rfl

/-! ### Everything a command can do -/

/-- A command that answers a next state either completes with its own effect or enters a fault. -/
theorem exec_next {i : Instr} {s t : State} (h : exec i s = .next t) :
    s.fault = .none ∧
    ((i = .init ∧ AllConfigurable s.config ∧ t = initBody s) ∨
     (i = .init ∧ (∃ pre q post, s.config.rolesInUse = pre ++ q :: post ∧
        (∀ r ∈ pre, s.config.okOf r = true) ∧ s.config.okOf q = false) ∧ t = initBody s) ∨
     (∃ v, i = .refresh v ∧ s.initDone = true ∧ t = refreshSteps v s) ∨
     (∃ v, i = .refresh v ∧ s.initDone = false ∧ t = raiseFault .notInitialised (encode (.refresh v)) s)) := by
  cases i with
  | init =>
    obtain ⟨hf, ht⟩ := whenRunning_next h
    refine ⟨hf, ?_⟩
    rcases all_ok_or_first_failure s.config s.config.rolesInUse with hok | hbad
    · exact .inl ⟨rfl, hok, ht⟩
    · exact .inr (.inl ⟨rfl, hbad, ht⟩)
  | refresh v =>
    obtain ⟨hf, ht⟩ := whenRunning_next h
    refine ⟨hf, ?_⟩
    cases hi : s.initDone with
    | true => exact .inr (.inr (.inl ⟨v, rfl, rfl, by simpa [refreshBody, hi] using ht⟩))
    | false => exact .inr (.inr (.inr ⟨v, rfl, rfl, by simpa [refreshBody, hi] using ht⟩))

/-- `exec_next` with the states INIT leaves written out: `d` is the DIR vector after it. -/
theorem exec_cases {i : Instr} {s t : State} (h : exec i s = .next t) :
    s.fault = .none ∧
    ((i = .init ∧ AllConfigurable s.config ∧ ∃ d : Vector Bool 12,
        t = { s with
          dir := d, initDone := true,
          history := s.history ++ s.config.rolesInUse.map (GpioEvent.cfg · true) } ∧
        ∀ r : Role, d[r.number] = (decide (r ∈ s.config.rolesInUse) || s.dirOf r)) ∨
     (i = .init ∧ ∃ (pre : List Role) (q : Role) (post : List Role) (d : Vector Bool 12),
        s.config.rolesInUse = pre ++ q :: post ∧ (∀ r ∈ pre, s.config.okOf r = true) ∧ s.config.okOf q = false ∧
        t = { s with
          dir := d, fault := .configFailed, faultCmd := 0, freeCount := s.freeCount + 1,
          history := s.history ++ (pre.map (GpioEvent.cfg · true) ++ [.cfg q false]) } ∧
        ∀ r : Role, d[r.number] = if r = q then Config.freeDir s.freeCount else (decide (r ∈ pre) || s.dirOf r)) ∨
     (∃ v, i = .refresh v ∧ s.initDone = true ∧ t = refreshSteps v s) ∨
     (∃ v, i = .refresh v ∧ s.initDone = false ∧ t = raiseFault .notInitialised (encode (.refresh v)) s)) := by
  obtain ⟨hf, h | ⟨hi, ⟨pre, q, post, h1, h2, h3⟩, rfl⟩ | h | h⟩ := exec_next h
  · obtain ⟨hi, hok, rfl⟩ := h
    exact ⟨hf, .inl ⟨hi, hok, initBody_ok s hok⟩⟩
  · obtain ⟨d, hd, hr⟩ := initBody_failed s pre post q h1 h2 h3
    exact ⟨hf, .inr (.inl ⟨hi, pre, q, post, d, h1, h2, h3, hd, hr⟩)⟩
  · exact ⟨hf, .inr (.inr (.inl h))⟩
  · exact ⟨hf, .inr (.inr (.inr h))⟩

theorem exec_init_running {s : State} (h : s.fault = .none) : exec .init s = .next (initBody s) :=
  whenRunning_running h _

theorem exec_refresh_running {s : State} (v : Value) (h : s.fault = .none) (hi : s.initDone = true) :
    exec (.refresh v) s = .next (refreshSteps v s) := by
  simp [exec, execRefresh, whenRunning_running h, refreshBody, hi]

theorem exec_refresh_uninitialised {s : State} (v : Value) (h : s.fault = .none) (hi : s.initDone = false) :
    exec (.refresh v) s = .next (raiseFault .notInitialised (encode (.refresh v)) s) := by
  simp [exec, execRefresh, whenRunning_running h, refreshBody, hi]

theorem exec_halted {s : State} (i : Instr) (h : s.fault ≠ .none) : exec i s = .fault (.halted s.fault) := by
  cases i <;> exact whenRunning_halted h _

end Sys2Proof.Machine
end

