-- ==== Sys2Proof/Laws/PerInstr.lean ====
section
/-! SUPPORT. Facts stated of every command, one lemma per constructor. -/

namespace Sys2Proof.Laws.OpcodeRow

/-- The mask of a command's row in the opcode table (30_encoding.md R54). -/
def rowMask : Instr → CommandWord
  | .init => 0x3FFFF#18
  | .refresh _ => 0x30000#18

/-- The match value of a command's row in the opcode table (30_encoding.md R54). -/
def rowMatch : Instr → CommandWord
  | .init => 0x00000#18
  | .refresh _ => 0x10000#18

/-- The word of a command lies in the row of the opcode table that stands for it. -/
def Statement (i : Instr) : Prop := encode i &&& rowMask i = rowMatch i

theorem init : Statement .init := by unfold Statement; decide

theorem refresh (value : Value) : Statement (.refresh value) := by
  have key : (0b01#2 ++ value : CommandWord) &&& (0b11#2 ++ 0#16 : CommandWord) = (0b01#2 ++ 0#16 : CommandWord) :=
    BitVec.and_append.trans (by simp)
  exact key

end Sys2Proof.Laws.OpcodeRow
end

