-- ==== Sys2Proof/Laws/Step.lean ====
section
/-! SUPPORT. Everything a step can do. -/

namespace Sys2Proof.Machine

theorem step_accepted {s : State} (h : Accepted s.config) : step s = takeNext s := by
  simp [step, show configRefusal s.config = none from h]

theorem step_command {s : State} {w : CommandWord} {rest : List HostEvent} (h : Accepted s.config)
    (hp : s.pending = .command w :: rest) : step s = runWord w (s.setPending rest) := by
  simp [step_accepted h, takeNext, hp, runEvent]

theorem step_reset {s : State} {rest : List HostEvent} (h : Accepted s.config) (hp : s.pending = .reset :: rest) :
    step s = .next (resetEvent (s.setPending rest)) := by
  simp [step_accepted h, takeNext, hp, runEvent]

theorem step_idle {s : State} (h : Accepted s.config) (hp : s.pending = []) : step s = .next s := by
  simp [step_accepted h, takeNext, hp]

theorem runWord_command {w : CommandWord} {i : Instr} (h : decode w = .command i) (s : State) :
    runWord w s = exec i s := by simp [runWord, h]

theorem runWord_illegal {w : CommandWord} {why : IllegalWord} (h : decode w = .illegal why) (s : State) :
    runWord w s = whenRunning s (raiseFault .illegalCommand w s) := by simp [runWord, h]

/-- A step that answers a next state is idle, the reset event, a command, or an illegal word that raises its fault. -/
theorem step_next {s t : State} (h : step s = .next t) :
    Accepted s.config ∧
    ((s.pending = [] ∧ t = s) ∨
     (∃ rest, s.pending = .reset :: rest ∧ t = resetEvent (s.setPending rest)) ∨
     (∃ w rest i, s.pending = .command w :: rest ∧ decode w = .command i ∧
        exec i (s.setPending rest) = .next t) ∨
     (∃ w rest why, s.pending = .command w :: rest ∧ decode w = .illegal why ∧ s.fault = .none ∧
        t = raiseFault .illegalCommand w (s.setPending rest))) := by
  have ha : Accepted s.config := by
    unfold step at h
    split at h
    · cases h
    · assumption
  refine ⟨ha, ?_⟩
  rcases hp : s.pending with _ | ⟨e, rest⟩
  · rw [step_idle ha hp] at h
    exact .inl ⟨rfl, (Host.Outcome.next.inj h).symm⟩
  · cases e with
    | reset =>
      rw [step_reset ha hp] at h
      exact .inr (.inl ⟨rest, rfl, (Host.Outcome.next.inj h).symm⟩)
    | command w =>
      rw [step_command ha hp] at h
      cases hd : decode w with
      | command i =>
        rw [runWord_command hd] at h
        exact .inr (.inr (.inl ⟨w, rest, i, rfl, hd, h⟩))
      | illegal why =>
        rw [runWord_illegal hd] at h
        obtain ⟨hf, ht⟩ := whenRunning_next h
        exact .inr (.inr (.inr ⟨w, rest, why, rfl, hd, hf, ht⟩))

/-- A run of one step more. -/
theorem core_run_next {s t : State} (n : Nat) (h : step s = .next t) : core.run (n + 1) s = core.run n t := by
  have key : ∀ (M : Host.Core) (s t : M.State), M.step s = .next t → M.run (n + 1) s = M.run n t := by
    intro M s t h
    rw [Host.Core.run, h]
  exact key core s t h

end Sys2Proof.Machine
end

