-- ==== Sys2Proof/Machine/Assembler.lean ====
section
/-! DEFINITION. The text of a command stream, one line at a time (30_encoding.md R56). What the rule leaves open (white
space, how many hexadecimal digits, their case) is notes/assumptions/19.md. -/

namespace Sys2Proof.Machine

/-- The value of a digit character in a base up to 16. -/
def charDigit (base : Nat) (c : Char) : Option Nat :=
  let n := c.toNat
  let d :=
    if 48 ≤ n ∧ n ≤ 57 then n - 48
    else if 65 ≤ n ∧ n ≤ 70 then n - 55
    else if 97 ≤ n ∧ n ≤ 102 then n - 87
    else 16
  if d < base then some d else none

/-- The number a run of digits stands for, continuing from `acc`. -/
def readDigits (base : Nat) : Nat → List Char → Option Nat
  | acc, [] => some acc
  | acc, c :: cs =>
    match charDigit base c with
    | some d => readDigits base (acc * base + d) cs
    | none => none

/-- `imm := decimal | "0x" hex` (30_encoding.md R56); the range check is `SourceCommand.operandFits`. -/
def readImm : List Char → Option Nat
  | [] => none
  | '0' :: 'x' :: [] => none
  | '0' :: 'x' :: cs => readDigits 16 0 cs
  | cs => readDigits 10 0 cs

/-- The words of a line: maximal runs of characters other than a space or a tab. `current` is the word being read,
reversed. -/
def splitWords (current : List Char) : List Char → List (List Char)
  | [] => if current.isEmpty then [] else [current.reverse]
  | c :: cs =>
    if c = ' ' ∨ c = '\t' then
      if current.isEmpty then splitWords [] cs else current.reverse :: splitWords [] cs
    else splitWords (c :: current) cs

/-- What a line holds: nothing, a command, or text the assembler refuses. -/
inductive Line where
  | blank
  | command (i : Instr)
  | refused
  deriving DecidableEq, Repr

/-- The command that a list of words writes, before the checks of WellFormed.lean. -/
def readCommand : List (List Char) → Option SourceCommand
  | ['I', 'N', 'I', 'T'] :: [] => some ⟨.init, none⟩
  | ['I', 'N', 'I', 'T'] :: imm :: [] => (readImm imm).map fun n => ⟨.init, some n⟩
  | ['R', 'E', 'F', 'R', 'E', 'S', 'H'] :: [] => some ⟨.refresh, none⟩
  | ['R', 'E', 'F', 'R', 'E', 'S', 'H'] :: imm :: [] => (readImm imm).map fun n => ⟨.refresh, some n⟩
  | _ => none

/-- `line := [command] [";" comment]` (30_encoding.md R56). -/
def assembleLine (cs : List Char) : Line :=
  match splitWords [] (cs.takeWhile (· ≠ ';')) with
  | [] => .blank
  | words =>
    match (readCommand words).bind assemble with
    | some i => .command i
    | none => .refused

end Sys2Proof.Machine
end

