-- ==== Sys2Proof/Tests/Slice0.lean ====
section
/-! SUPPORT. Tests with expected results from the vectors of 95_test_vectors.md, and for each statement that has hypotheses
a concrete state and operands that meet them. -/

namespace Sys2Proof.Tests.Slice0

open Sys2Proof Sys2Proof.Machine

/-! ### States for the tests -/

/-- The next state of an outcome; reset where there is none. -/
def after : Host.Outcome State Fault Refusal → State
  | .next s => s
  | _ => State.reset

/-- Reset, then INIT (V-IN1). -/
def initialised : State := after (exec .init State.reset)

/-- Reset, INIT, REFRESH 1234 (W1): DIG0 is active, CURSOR is 1. -/
def scanned : State := after (exec (.refresh 1234) initialised)

/-- A board whose digit-select lines are active low and which has a decimal point (program P5). -/
def lowBoard : Config := { Config.reference with digitActiveLevel := .low, dpPresent := true }

/-- A board on which SEG_C cannot be configured (V-IN5). -/
def brokenBoard : Config := { Config.reference with configOk := Config.reference.configOk.set 2 false }

/-- A board with SEG_A and SEG_B on one pin. -/
def shortedBoard : Config := { Config.reference with pinMap := Config.reference.pinMap.set 1 ⟨0, 0⟩ }

/-- A board whose entry 9 is 0x67. -/
def wrongNineBoard : Config := { Config.reference with symbolTable := Config.stdTable.set 9 0x67#7 }

/-- A halted block: reset, then REFRESH 5 (program P4). -/
def haltedState : State := after (exec (.refresh 5) State.reset)

/-! ### Decoding: words written out from 30_encoding.md R50 and R51 -/

theorem test_decode_init : decode (0b00#2 ++ 0b0000000000000000#16) = .command .init := by decide

theorem test_decode_refresh_1234 : decode 0b010000010011010010#18 = .command (.refresh 1234) := by decide

theorem test_decode_refresh_65535 : decode 0b011111111111111111#18 = .command (.refresh 65535) := by decide

theorem test_decode_init_with_value : decode 0b000000000000000001#18 = .illegal .initWithValue := by decide

theorem test_decode_reserved_op10 : decode 0b101010101111001101#18 = .illegal .reservedOp10 := by decide

theorem test_decode_reserved_op11 : decode 0b110000000000000000#18 = .illegal .reservedOp11 := by decide

theorem test_table_word_init : decodeTableWord 24 0x00000 = some .init := by decide

theorem test_table_word_refresh : decodeTableWord 24 0x104D2 = some (.refresh 1234) := by decide

theorem test_table_word_illegal : decodeTableWord 24 0x2ABCD = none := by decide

/-! ### Well-formedness: an ill-formed term for each check (30_encoding.md R56) -/

theorem smoke_init_with_operand : SourceCommand.initHasNoOperand ⟨.init, some 0⟩ = false := by decide

theorem smoke_refresh_without_operand : SourceCommand.refreshHasOperand ⟨.refresh, none⟩ = false := by decide

theorem smoke_operand_too_large : SourceCommand.operandFits ⟨.refresh, some 65536⟩ = false := by decide

theorem smoke_wellFormed : SourceCommand.wellFormed ⟨.refresh, some 65535⟩ = true := by decide

theorem smoke_shorted_pins : shortedBoard.pinMapInjective = false := by decide

theorem smoke_wrong_nine : wrongNineBoard.symbolNineGiven = false := by decide

/-! ### Assembler text (30_encoding.md R56, and the assembler vectors after V-ENC) -/

theorem test_assemble_refresh :
    assembleLine ['R', 'E', 'F', 'R', 'E', 'S', 'H', ' ', '1', '2', '3', '4', ' ', ';', 'x'] = .command (.refresh 1234) := by
  decide

theorem test_assemble_hex :
    assembleLine ['R', 'E', 'F', 'R', 'E', 'S', 'H', ' ', '0', 'x', 'F', 'F', 'F', 'F'] = .command (.refresh 65535) := by
  decide

theorem test_assemble_too_large :
    assembleLine ['R', 'E', 'F', 'R', 'E', 'S', 'H', ' ', '6', '5', '5', '3', '6'] = .refused := by decide

theorem test_assemble_init_with_operand : assembleLine ['I', 'N', 'I', 'T', ' ', '0'] = .refused := by decide

theorem test_assemble_comment : assembleLine [' ', ';', 'I'] = .blank := by decide

/-! ### DECOMPOSE and the two commands -/

/-- V-DEC, at the boundary of truncation and at the largest operand. -/
theorem test_decompose :
    decompose 9999 = #v[9, 9, 9, 9] ∧ decompose 10000 = #v[0, 0, 0, 0] ∧ decompose 65535 = #v[5, 5, 3, 5] ∧
      decompose 1234 = #v[1, 2, 3, 4] := by decide

/-- V-IN2: INIT with the decimal point makes all twelve lines outputs and writes no latch. -/
theorem test_init_with_dp :
    (after (exec .init (State.resetWith lowBoard))).dir = Vector.replicate 12 true ∧
      (after (exec .init (State.resetWith lowBoard))).lat = Vector.replicate 12 none := by decide

/-- V-IN5: INIT where SEG_C cannot be configured; nothing is said of DIR[2]. -/
theorem test_init_config_failed :
    (after (exec .init (State.resetWith brokenBoard))).history =
        [.cfg (.seg 0) true, .cfg (.seg 1) true, .cfg (.seg 2) false] ∧
      (after (exec .init (State.resetWith brokenBoard))).fault = .configFailed ∧
      (after (exec .init (State.resetWith brokenBoard))).dirOf (.seg 1) = true ∧
      (after (exec .init (State.resetWith brokenBoard))).dirOf (.seg 3) = false ∧
      (after (exec .init (State.resetWith brokenBoard))).initDone = false := by decide

/-- V-RF3 with active-low selects (V-RF10): at CURSOR = 3, REFRESH 1234 shows SYM[4] = 0x66 and the cursor wraps. -/
theorem test_refresh_wraps_active_low :
    (after (exec (.refresh 1234) { State.resetWith lowBoard with initDone := true, cursor := 3 })).lat =
        #v[some .low, some .high, some .high, some .low, some .low, some .high, some .high, none,
          some .high, some .high, some .high, some .low] ∧
      (after (exec (.refresh 1234) { State.resetWith lowBoard with initDone := true, cursor := 3 })).cursor = 0 := by
  decide

/-- V-TR2: the writes of REFRESH 1234 at CURSOR = 2. -/
theorem test_refresh_trace :
    (after (exec (.refresh 1234) { State.reset with initDone := true, cursor := 2 })).history =
      [.wr (.seg 0) .high, .wr (.seg 1) .high, .wr (.seg 2) .high, .wr (.seg 3) .high, .wr (.seg 4) .low,
       .wr (.seg 5) .low, .wr (.seg 6) .high, .wr (.dig 0) .low, .wr (.dig 1) .low, .wr (.dig 3) .low,
       .wr (.dig 2) .high] := by decide

/-- V-FL2: an illegal word before INIT raises F_ILLEGAL_COMMAND, not F_NOT_INITIALISED. -/
theorem test_illegal_before_init :
    (after (step (State.reset.withFetchWord 24 0x30005))).fault.code = 1 ∧
      (after (step (State.reset.withFetchWord 24 0x30005))).faultCmd = 0x30005#18 := by decide

/-! ### Witnesses -/

theorem reference_accepted : Accepted Config.reference := by decide

theorem reference_configurable : AllConfigurable Config.reference := by decide

theorem initialised_ready : initialised.Running ∧ initialised.initDone = true ∧ initialised.pending = [] := by decide

theorem initialised_config : initialised.config = Config.reference := by rfl

theorem role_okOf_reference (r : Role) : Config.reference.okOf r = true := by
  cases r with
  | seg i => revert i; decide
  | dp => decide
  | dig k => revert k; decide

theorem scanned_scanInv : ScanInv scanned where
  digitsDecimal := by decide
  dpUnwritten := by decide
  configured := fun _ => by decide
  outputsAreOk := fun _ r _ => role_okOf_reference r
  display := .inr ⟨by decide, by decide, by decide⟩

theorem scanned_faultInv : FaultInv scanned := by
  show scanned.faultCmd = 0
  decide

theorem scanned_historyInv : HistoryInv scanned where
  latches r := by
    cases r with
    | seg i => revert i; decide
    | dp => decide
    | dig k => revert k; decide
  outputs r _ := by
    cases r with
    | seg i => revert i; decide
    | dp => decide
    | dig k => revert k; decide

theorem scanned_neverTwoActive : NeverTwoActive scanned.config.digitActiveLevel scanned.history := by
  have h : ∀ j : Position, GpioEvent.wr (.dig j) scanned.config.digitActiveLevel ∈ scanned.history → j = 0 := by decide
  have hz : ∀ (n : Nat) (j : Position),
      levelAfter (.dig j) none (scanned.history.take n) = some scanned.config.digitActiveLevel → j = 0 := fun n j hj =>
    h j (List.mem_of_mem_take ((mem_of_levelAfter _ _ _ _ hj).resolve_right (by simp)))
  exact fun n j k hj hk => (hz n j hj).trans (hz n k hk).symm

theorem witness_StepRunsTheDecodedCommand :
    Accepted (scanned.withFetchWord 24 0x104D2).config ∧
      (scanned.withFetchWord 24 0x104D2).pending = .command 0x104D2#18 :: [] ∧
      decode 0x104D2#18 = .command (.refresh 1234) := by decide

theorem witness_WaitingChangesNothing : Accepted scanned.config ∧ scanned.pending = [] := by decide

/-- Each class of illegal word at both ends of its range. -/
theorem witness_IllegalWordRaisesItsFault :
    Accepted State.reset.config ∧ State.reset.Running ∧
    (∀ w, (issueFirst w State.reset).pending = .command w :: []) ∧
    ((0x00001#18).toNat / 65536 = 0 ∧ (0x00001#18).toNat % 65536 ≠ 0) ∧
    ((0x0FFFF#18).toNat / 65536 = 0 ∧ (0x0FFFF#18).toNat % 65536 ≠ 0) ∧
    (0x20000#18).toNat / 65536 = 2 ∧ (0x2FFFF#18).toNat / 65536 = 2 ∧
    (0x30000#18).toNat / 65536 = 3 ∧ (0x3FFFF#18).toNat / 65536 = 3 :=
  ⟨by decide, by decide, fun _ => rfl, by decide⟩

theorem witness_RefreshBeforeInitFaults : State.reset.Running ∧ State.reset.initDone = false := by decide

theorem witness_FailedConfigurationHaltsInit :
    (State.resetWith brokenBoard).Running ∧
      brokenBoard.rolesInUse = [.seg 0, .seg 1] ++ .seg 2 ::
        [.seg 3, .seg 4, .seg 5, .seg 6, .dig 0, .dig 1, .dig 2, .dig 3] ∧
      (∀ r ∈ [Role.seg 0, .seg 1], brokenBoard.okOf r = true) ∧ brokenBoard.okOf (.seg 2) = false := by decide

theorem witness_FailedConfigurationHaltsInit_default :
    (∀ r : Role, State.reset.config.okOf r = true) ∧ ∃ t, exec .init State.reset = .next t :=
  ⟨role_okOf_reference, _, rfl⟩

/-- The clauses in turn: halted, an illegal word, REFRESH before and after INIT, INIT that completes, INIT that fails. -/
theorem witness_FaultsAreCheckedInOrder :
    (Accepted haltedState.config ∧ (issueFirst 0 haltedState).pending = [.command 0] ∧ haltedState.fault.code ≠ 0) ∧
    (State.reset.fault.code = 0 ∧ decode 0x20000#18 = .illegal .reservedOp10) ∧
    (State.reset.fault.code = 0 ∧ State.reset.initDone = false ∧ decode 0x10005#18 = .command (.refresh 5)) ∧
    (initialised.fault.code = 0 ∧ initialised.initDone = true) ∧
    (decode 0x00000#18 = .command .init ∧ ∀ r ∈ Config.reference.rolesInUse, Config.reference.okOf r = true) ∧
    (Accepted brokenBoard ∧ brokenBoard.rolesInUse.find? (fun r => !brokenBoard.okOf r) = some (.seg 2)) := by decide

theorem witness_HaltedBlockTakesNoCommand :
    ¬ haltedState.Running ∧ Accepted (issueFirst 0 haltedState).config ∧
      (issueFirst 0 haltedState).pending = .command 0 :: [] := by decide

/-- A step that leaves the fault registers, one that enters a fault, and the reset event that clears one. -/
theorem witness_OnlyResetClearsAFault :
    (∃ t, step (scanned.withFetchWord 24 0x104D2) = .next t) ∧
    (∃ t, step (scanned.withFetchWord 24 0x20000) = .next t ∧ t.fault ≠ .none) ∧
    (∃ t, step (haltedState.setPending [.reset]) = .next t ∧ t.fault = .none) :=
  ⟨⟨_, rfl⟩, ⟨_, rfl, by decide⟩, ⟨_, rfl, by decide⟩⟩

theorem witness_InitMakesTheLinesOutputs :
    (State.resetWith lowBoard).Running ∧ AllConfigurable (State.resetWith lowBoard).config := by decide

theorem witness_InitLeavesTheScanAlone :
    (∃ t, exec .init scanned = .next t ∧ t.fault = .none ∧ scanned.config.dpPresent = false ∧ scanned.initDone = true) ∧
    ∃ t, exec .init (State.resetWith brokenBoard) = .next t ∧ t.fault ≠ .none :=
  ⟨⟨_, rfl, by decide⟩, ⟨_, rfl, by decide⟩⟩

theorem witness_InitAgainChangesNothing : ∃ t, exec .init State.reset = .next t ∧ t.Running := ⟨_, rfl, by decide⟩

theorem witness_RefreshShowsTheDigitAtTheCursor : initialised.Running ∧ initialised.initDone = true := by decide

/-- REFRESH that completes, and REFRESH that faults. -/
theorem witness_RefreshFrame :
    (∃ t, exec (.refresh 1234) scanned = .next t ∧ t.Running) ∧
    ∃ t, exec (.refresh 1234) State.reset = .next t ∧ t.fault ≠ .none :=
  ⟨⟨_, rfl, by decide⟩, ⟨_, rfl, by decide⟩⟩

theorem witness_RefreshWritesInOrder : ∃ t, exec (.refresh 65535) scanned = .next t ∧ t.Running := ⟨_, rfl, by decide⟩

theorem witness_DecomposeLaws :
    (9999 : Value).toNat ≤ 9999 ∧ (0 : Value).toNat ≤ 9999 ∧ (∀ k, (digitAt scanned.digbuf k).toNat ≤ 9) ∧
      ∃ t, step (scanned.withFetchWord 24 0x1FFFF) = .next t := ⟨by decide, by decide, by decide, _, rfl⟩

/-- The digit 0 of 9 at position 0 and at position 1 (program P2). -/
theorem witness_PatternDependsOnTheDigitAlone :
    ∃ t t', exec (.refresh 9) initialised = .next t ∧ t.Running ∧ exec (.refresh 9) scanned = .next t' ∧ t'.Running ∧
      initialised.config.symbolTable = scanned.config.symbolTable ∧
      digitAt t.digbuf initialised.cursor = digitAt t'.digbuf scanned.cursor ∧
      initialised.cursor ≠ scanned.cursor :=
  ⟨_, _, rfl, by decide, rfl, by decide⟩

theorem witness_DecimalPointIsNeverDriven :
    (∃ t, exec .init scanned = .next t) ∧ ∃ t, exec (.refresh 8888) scanned = .next t := ⟨⟨_, rfl⟩, ⟨_, rfl⟩⟩

theorem witness_ExactlyOneLineActiveAfterRefresh :
    ∃ t u, exec (.refresh 1234) scanned = .next t ∧ t.Running ∧ exec .init t = .next u :=
  ⟨_, _, rfl, by decide, rfl⟩

/-- Another letter A in entry 10. -/
theorem witness_OnlyDecimalSymbolsAreReached :
    (∀ d : Digit, d.toNat ≤ 9 → (Config.stdTable.set 10 0#7)[d.toNat] = scanned.config.symbolTable[d.toNat]) ∧
      ∃ t, exec (.refresh 1234) scanned = .next t ∧ t.Running :=
  ⟨by decide, _, rfl, by decide⟩

theorem witness_NineShowsItsPattern :
    ∃ t, step (scanned.withFetchWord 24 0x1270F) = .next t ∧
      (scanned.withFetchWord 24 0x1270F).pending = .command (0x10000#18 ||| (9999#16 : Value).setWidth 18) :: [] ∧
      t.Running ∧ digitAt t.digbuf (scanned.withFetchWord 24 0x1270F).cursor = 9 :=
  ⟨_, rfl, by decide⟩

/-- A completing REFRESH, the reset event, idling, and a word that is no REFRESH. -/
theorem witness_CursorMovesOnlyOnRefresh :
    (∃ t, step (scanned.withFetchWord 24 0x104D2) = .next t ∧ t.fault = .none ∧
      decode 0x104D2#18 = .command (.refresh 1234)) ∧
    (∃ t, step (scanned.setPending [.reset]) = .next t) ∧ (∃ t, step scanned = .next t ∧ scanned.pending = []) ∧
    ∃ t, step (scanned.withFetchWord 24 0x20000) = .next t ∧ t.fault ≠ .none :=
  ⟨⟨_, rfl, by decide⟩, ⟨_, rfl⟩, ⟨_, rfl, by decide⟩, ⟨_, rfl, by decide⟩⟩

/-- A completing INIT, REFRESH before and after INIT, and the reset event. -/
theorem witness_InitDoneRecordsACompletedInit :
    (∃ t, step (State.reset.withFetchWord 24 0) = .next t ∧ t.fault = .none ∧ t.initDone ≠ State.reset.initDone) ∧
    (∃ t, step (State.reset.withFetchWord 24 0x10005) = .next t ∧ t.fault ≠ .none) ∧
    (∃ t, step (initialised.withFetchWord 24 0x10005) = .next t ∧ t.fault = .none) ∧
    ∃ t, step (scanned.setPending [.reset]) = .next t ∧ t.initDone ≠ scanned.initDone :=
  ⟨⟨_, rfl, by decide⟩, ⟨_, rfl, by decide⟩, ⟨_, rfl, by decide⟩, ⟨_, rfl, by decide⟩⟩

theorem witness_DirectionBitsOnlyRise :
    ScanInv scanned ∧ (∃ t, exec .init scanned = .next t ∧ t.fault = .none ∧
      ∃ new, t.history = scanned.history ++ new ∧ GpioEvent.cfg (.seg 0) true ∈ new) ∧
      scanned.dirOf (.seg 0) = true ∧ scanned.config.dpPresent = false :=
  ⟨scanned_scanInv, ⟨_, rfl, by decide, Config.reference.rolesInUse.map (GpioEvent.cfg · true), by decide⟩, by decide⟩

theorem witness_OnlyRefreshWritesLatches :
    (∃ t, exec (.refresh 7) scanned = .next t ∧ t.Running) ∧ ∃ t, exec .init scanned = .next t :=
  ⟨⟨_, rfl, by decide⟩, ⟨_, rfl⟩⟩

theorem witness_NoStepChangesTheConfiguration :
    (∃ t, step (scanned.withFetchWord 24 0x104D2) = .next t) ∧ ∃ t, step (scanned.setPending [.reset]) = .next t :=
  ⟨⟨_, rfl⟩, ⟨_, rfl⟩⟩

theorem witness_CommandsDoBoundedWork :
    (∃ t, exec .init State.reset = .next t ∧ t.fault = .none) ∧
    (∃ t, exec (.refresh 7) scanned = .next t ∧ t.fault = .none) ∧
    ∃ t, exec (.refresh 7) State.reset = .next t ∧ t.fault ≠ .none :=
  ⟨⟨_, rfl, by decide⟩, ⟨_, rfl, by decide⟩, ⟨_, rfl, by decide⟩⟩

/-- V-FL5: the reset event of a halted block. -/
theorem witness_ResetEventRestoresEveryElement :
    Accepted (haltedState.setPending [.reset]).config ∧ (haltedState.setPending [.reset]).pending = .reset :: [] ∧
      haltedState.fault ≠ .none := by decide

theorem witness_BadConfigurationsAreRefused :
    (Role.seg 0 ∈ shortedBoard.rolesInUse ∧ Role.seg 1 ∈ shortedBoard.rolesInUse ∧ Role.seg 0 ≠ Role.seg 1 ∧
      shortedBoard.pinOf (.seg 0) = shortedBoard.pinOf (.seg 1)) ∧
    wrongNineBoard.symbolTable[9] ≠ 0x6F#7 ∧
    ((∀ r ∈ Config.reference.rolesInUse, ∀ q ∈ Config.reference.rolesInUse,
      Config.reference.pinOf r = Config.reference.pinOf q → r = q) ∧ Config.reference.symbolTable[9] = 0x6F#7) := by
  decide

/-- A line that is undriven, one that is unknown, and one at a level. -/
theorem witness_PinsShowTheirRole :
    (Accepted State.reset.config ∧ Role.dig 3 ∈ State.reset.config.rolesInUse ∧ State.reset.dirOf (.dig 3) = false) ∧
    (initialised.dirOf (.dig 3) = true ∧ initialised.latOf (.dig 3) = none) ∧
    (scanned.dirOf (.dig 0) = true ∧ scanned.latOf (.dig 0) = some .high) := by decide

theorem witness_DisplayDuringBoot : JustReset State.reset ∧ AllConfigurable State.reset.config := by decide

theorem witness_InvariantsHoldAfterReset : JustReset (State.resetWith lowBoard) := by decide

theorem witness_StepKeepsTheInvariants :
    ScanInv (scanned.withFetchWord 24 0x104D2) ∧ FaultInv (scanned.withFetchWord 24 0x104D2) ∧
      HistoryInv (scanned.withFetchWord 24 0x104D2) ∧
      NeverTwoActive (scanned.withFetchWord 24 0x104D2).config.digitActiveLevel
        (scanned.withFetchWord 24 0x104D2).history ∧
      ∃ t, step (scanned.withFetchWord 24 0x104D2) = .next t :=
  ⟨⟨scanned_scanInv.1, scanned_scanInv.2, scanned_scanInv.3, scanned_scanInv.4, scanned_scanInv.5⟩, scanned_faultInv,
    ⟨scanned_historyInv.1, scanned_historyInv.2⟩, scanned_neverTwoActive, _, rfl⟩

/-- After REFRESH 1234 at position 0, SYM[1] = 0x06 stands on the segment lines (W1). -/
theorem witness_TransientStatesOfARefresh :
    scanned.OnlyActive (scanned.cursor + 3) ∧ scanned.ShowsPattern 0x06#7 ∧
      ∃ t, exec (.refresh 1234) scanned = .next t ∧ t.Running :=
  ⟨by decide, by decide, _, rfl, by decide⟩

theorem witness_CursorCountsTheRefreshes :
    Accepted scanned.config ∧ AllConfigurable scanned.config ∧ scanned.Running ∧ scanned.initDone = true ∧
      (scanned.setPending [.command 0x1FFFF#18, .command 0#18, .reset]).pending =
        [.refresh 65535, .init].map commandEvent ++ [.reset] := by decide

theorem witness_FourRefreshesScanTheDisplay : scanned.Running ∧ scanned.initDone = true := by decide

theorem witness_DigitBufferIsHidden :
    (∃ t, exec (.refresh 42) scanned = .next t ∧ t.Running) ∧ ∃ t, exec .init scanned = .next t :=
  ⟨⟨_, rfl, by decide⟩, ⟨_, rfl⟩⟩

theorem witness_TheLinesNeverFeedBack :
    (∃ t, exec (.refresh 42) scanned = .next t) ∧ ∃ t, exec .init (State.resetWith brokenBoard) = .next t :=
  ⟨⟨_, rfl⟩, ⟨_, rfl⟩⟩

end Sys2Proof.Tests.Slice0
end

/-! The state elements (10_state.md): reset values, INIT_DONE, DIR and LAT over commands and steps. -/

namespace Sys2Proof.Machine

/-! ### Reset values -/

theorem digitAt_resetWith (c : Config) (k : Position) : digitAt (State.resetWith c).digbuf k = 0 := by
  rw [State.resetWith_digbuf]
  revert k
  decide

/-- Settles O32: the reset value of each element; `State.reset` is the reference configuration's reset state. -/
theorem resetValues : Obligations.ResetValues :=
  ⟨fun c => ⟨rfl, digitAt_resetWith c, rfl, rfl, rfl, dirOf_resetWith c, latOf_resetWith c, fun _ => rfl⟩,
    Config.reference, rfl⟩

/-! ### INIT_DONE -/

/-- A step whose word decodes to a command is that command's meaning. -/
theorem exec_of_step {s t : State} {w : CommandWord} {rest : List HostEvent} {i : Instr} (h : step s = .next t)
    (hp : s.pending = .command w :: rest) (hd : decode w = .command i) : exec i (s.setPending rest) = .next t := by
  obtain ⟨ha, -⟩ := step_next h
  rw [← h, step_command ha hp, runWord_command hd]

/-- An INIT that completes: every line in use could be configured, and only DIR, INIT_DONE and the history change. -/
theorem exec_init_completed {s t : State} (h : exec .init s = .next t) (hf : t.fault = .none) :
    AllConfigurable s.config ∧ ∃ d : Vector Bool 12,
      t = { s with
        dir := d, initDone := true,
        history := s.history ++ s.config.rolesInUse.map (GpioEvent.cfg · true) } ∧
      ∀ r : Role, d[r.number] = (decide (r ∈ s.config.rolesInUse) || s.dirOf r) := by
  obtain ⟨-, ⟨-, hok, hd⟩ | ⟨-, _, _, _, _, -, -, -, rfl, -⟩ | ⟨_, hi, -⟩ | ⟨_, hi, -⟩⟩ := exec_cases h
  · exact ⟨hok, hd⟩
  · cases hf
  · cases hi
  · cases hi

theorem exec_init_sets_initDone {s t : State} (h : exec .init s = .next t) (hf : t.fault = .none) :
    t.initDone = true := by
  obtain ⟨-, d, rfl, -⟩ := exec_init_completed h hf
  rfl

/-- REFRESH reads INIT_DONE (60_exceptions.md R85). -/
theorem exec_refresh_fault_none_iff {s t : State} {v : Value} (h : exec (.refresh v) s = .next t) :
    t.fault = .none ↔ s.initDone = true := by
  obtain ⟨hf, ⟨hi, -⟩ | ⟨hi, -⟩ | ⟨u, -, hdone, rfl⟩ | ⟨u, -, hdone, rfl⟩⟩ := exec_next h
  · cases hi
  · cases hi
  · simp [hf, hdone]
  · simp [hdone]

/-- The only command that changes INIT_DONE is an INIT that completes. -/
theorem exec_initDone_ne {i : Instr} {s t : State} (h : exec i s = .next t) (hne : t.initDone ≠ s.initDone) :
    i = .init ∧ t.fault = .none := by
  obtain ⟨hf, ⟨hi, -, d, rfl, -⟩ | ⟨-, _, _, _, d, -, -, -, rfl, -⟩ | ⟨v, -, -, rfl⟩ | ⟨v, -, -, rfl⟩⟩ := exec_cases h
  · exact ⟨hi, hf⟩
  · exact absurd rfl hne
  · exact absurd (refreshSteps_initDone v s) hne
  · exact absurd (raiseFault_initDone _ _ s) hne

theorem step_initDone_ne {s t : State} (h : step s = .next t) (hne : t.initDone ≠ s.initDone) :
    (∃ w rest, s.pending = .command w :: rest ∧ decode w = .command .init ∧ t.fault = .none) ∨
    ∃ rest, s.pending = .reset :: rest := by
  obtain ⟨-, ⟨-, rfl⟩ | ⟨rest, hp, -⟩ | ⟨w, rest, i, hp, hd, he⟩ | ⟨w, rest, why, -, -, -, rfl⟩⟩ := step_next h
  · exact absurd rfl hne
  · exact .inr ⟨rest, hp⟩
  · obtain ⟨rfl, hf⟩ := exec_initDone_ne he hne
    exact .inl ⟨w, rest, hp, hd, hf⟩
  · exact absurd rfl hne

/-- Settles O27: the clauses on commands by `exec_of_step`, the converse by the cases of a step. -/
theorem initDoneRecordsACompletedInit : Obligations.InitDoneRecordsACompletedInit := by
  intro s t h
  refine ⟨fun w rest hp hd hf => exec_init_sets_initDone (exec_of_step h hp hd) hf,
    fun w rest v hp hd => (exec_refresh_fault_none_iff (exec_of_step h hp hd) :),
    fun rest hp => ?_, step_initDone_ne h⟩
  obtain ⟨ha, -⟩ := step_next h
  rw [step_reset ha hp] at h
  cases h
  rfl

/-! ### DIR -/

/-- REFRESH configures no line. -/
theorem cfg_not_mem_refreshEvents (v : Value) (s : State) (r : Role) (ok : Bool) :
    GpioEvent.cfg r ok ∉ refreshEvents v s := by
  simp [refreshEvents, writeEvents]

/-- A line whose configuration a command records as successful is an output after it. -/
theorem exec_configured_dirOf {i : Instr} {s t : State} (h : exec i s = .next t) {new : List GpioEvent}
    (hn : t.history = s.history ++ new) {r : Role} (hr : .cfg r true ∈ new) : t.dirOf r = true := by
  obtain ⟨-, ⟨-, -, d, rfl, hd⟩ | ⟨-, pre, q, post, d, -, hpre, hq, rfl, hd⟩ | ⟨v, -, -, rfl⟩ | ⟨v, -, -, rfl⟩⟩ :=
    exec_cases h
  · obtain rfl := List.append_cancel_left hn
    have hmem : r ∈ s.config.rolesInUse := by simpa using hr
    exact (hd r).trans (by simp [hmem])
  · obtain rfl := List.append_cancel_left hn
    have hmem : r ∈ pre := by simpa using hr
    have hrq : r ≠ q := by
      rintro rfl
      simp [hpre r hmem] at hq
    exact (hd r).trans (by simp [hmem, hrq])
  · obtain rfl := List.append_cancel_left ((refreshSteps_history v s).symm.trans hn)
    exact absurd hr (cfg_not_mem_refreshEvents v s r true)
  · obtain rfl : new = [] := by simpa using hn
    cases hr

/-- After an INIT that completes every line in use is an output. -/
theorem exec_init_dirOf {s t : State} (h : exec .init s = .next t) (hf : t.fault = .none) {r : Role}
    (hr : r ∈ s.config.rolesInUse) : t.dirOf r = true := by
  obtain ⟨-, d, rfl, hd⟩ := exec_init_completed h hf
  exact (hd r).trans (by simp [hr])

/-- An output that the platform can configure stays one: the free DIR bit is that of a line it cannot configure. -/
theorem exec_keeps_output {i : Instr} {s t : State} (h : exec i s = .next t) {r : Role}
    (hok : s.config.okOf r = true) (hr : s.dirOf r = true) : t.dirOf r = true := by
  obtain ⟨-, ⟨-, -, d, rfl, hd⟩ | ⟨-, pre, q, post, d, -, -, hq, rfl, hd⟩ | ⟨v, -, -, rfl⟩ | ⟨v, -, -, rfl⟩⟩ :=
    exec_cases h
  · exact (hd r).trans (by simp [hr])
  · have hrq : r ≠ q := by
      rintro rfl
      simp [hok] at hq
    exact (hd r).trans (by simp [hr, hrq])
  · simpa using hr
  · simpa using hr

/-- No command changes the direction of a line not in use. -/
theorem exec_dirOf_unused {i : Instr} {s t : State} (h : exec i s = .next t) {r : Role}
    (hr : r ∉ s.config.rolesInUse) : t.dirOf r = s.dirOf r := by
  obtain ⟨-, ⟨-, -, d, rfl, hd⟩ | ⟨-, pre, q, post, d, hroles, -, -, rfl, hd⟩ | ⟨v, -, -, rfl⟩ | ⟨v, -, -, rfl⟩⟩ :=
    exec_cases h
  · exact (hd r).trans (by simp [hr])
  · obtain ⟨hpre, hrq, -⟩ : r ∉ pre ∧ r ≠ q ∧ r ∉ post := by simpa [hroles] using hr
    exact (hd r).trans (by simp [hpre, hrq])
  · exact dirOf_refreshSteps v s r
  · rfl

/-- Settles O28: in a running state that meets `ScanInv` every output is a line the platform can configure, so no
output is the line whose DIR bit a failing INIT leaves free. -/
theorem directionBitsOnlyRise : Obligations.DirectionBitsOnlyRise := by
  intro i s t hinv h
  obtain ⟨hf, -⟩ := exec_next h
  have hok : ∀ r, s.dirOf r = true → s.config.okOf r = true := hinv.outputsAreOk (by simp [hf])
  refine ⟨fun new hn r hr => exec_configured_dirOf h hn hr, ?_, fun r hr => exec_keeps_output h (hok r hr) hr,
    fun hdp => exec_dirOf_unused h (by simp [Config.mem_rolesInUse, hdp])⟩
  rintro rfl hft r hr
  exact exec_init_dirOf h hft hr

/-! ### LAT -/

/-- One REFRESH writes each line but DP, and what it writes last is what the latch holds, whatever it held before. -/
theorem exists_levelAfter_refreshEvents (v : Value) (s : State) {r : Role} (hr : r ≠ .dp) :
    ∃ l, ∀ b, levelAfter r b (refreshEvents v s) = some l := by
  cases r with
  | seg i => exact ⟨_, fun b => levelAfter_refreshEvents v s (.seg i) b⟩
  | dp => exact absurd rfl hr
  | dig k => exact ⟨_, fun b => levelAfter_refreshEvents v s (.dig k) b⟩

/-- The latch of each line but DP holds, after a REFRESH, a level that the REFRESH wrote. -/
theorem exists_wr_mem_refreshEvents (v : Value) (s : State) {r : Role} (hr : r ≠ .dp) :
    ∃ b, .wr r b ∈ refreshEvents v s ∧ (refreshSteps v s).latOf r = some b := by
  obtain ⟨l, hl⟩ := exists_levelAfter_refreshEvents v s hr
  exact ⟨l, (mem_of_levelAfter r l _ none (hl none)).resolve_right (by simp),
    (latOf_refreshSteps v s r).trans (hl _)⟩

/-- A REFRESH that completes is its five steps. -/
theorem exec_refresh_completed {s t : State} {v : Value} (h : exec (.refresh v) s = .next t) (ht : t.Running) :
    t = refreshSteps v s := by
  have hdone : s.initDone = true := (exec_refresh_fault_none_iff h).mp ht
  obtain ⟨hf, -⟩ := exec_next h
  rw [exec_refresh_running v hf hdone] at h
  exact (Host.Outcome.next.inj h).symm

/-- INIT writes no latch, completing or not (90_conflicts.md C4). -/
theorem exec_init_lat {s t : State} (h : exec .init s = .next t) : t.lat = s.lat := by
  obtain ⟨-, ⟨-, -, d, rfl, -⟩ | ⟨-, _, _, _, d, -, -, -, rfl, -⟩ | ⟨_, hi, -⟩ | ⟨_, hi, -⟩⟩ := exec_cases h
  · rfl
  · rfl
  · cases hi
  · cases hi

/-- No command changes the latch of DP (40_symbol_table.md R65). -/
theorem exec_latOf_dp {i : Instr} {s t : State} (h : exec i s = .next t) : t.latOf .dp = s.latOf .dp := by
  cases i with
  | init => rw [State.latOf, State.latOf, exec_init_lat h]
  | refresh v =>
    obtain ⟨-, ⟨hi, -⟩ | ⟨hi, -⟩ | ⟨u, -, -, rfl⟩ | ⟨u, -, -, rfl⟩⟩ := exec_next h
    · cases hi
    · cases hi
    · exact latOf_refreshSteps_dp u s
    · rfl

/-- Settles O29: the writes of a completing REFRESH are `refreshEvents`; the rest is the frame of LAT. -/
theorem onlyRefreshWritesLatches : Obligations.OnlyRefreshWritesLatches := by
  refine fun s t => ⟨fun v h ht => ?_, exec_init_lat, fun i => exec_latOf_dp⟩
  obtain rfl := exec_refresh_completed h ht
  exact ⟨refreshEvents v s, refreshSteps_history v s, fun r hr => exists_wr_mem_refreshEvents v s hr⟩

end Sys2Proof.Machine

/-! The encoding (30_encoding.md): the fields of a command word as numbers, and the decoder's answer by them. -/

namespace Sys2Proof

/-- OP as a number: the word divided by 2^16 (30_encoding.md R50). -/
theorem opField_eq_iff (w : CommandWord) (o : BitVec 2) : opField w = o ↔ w.toNat / 65536 = o.toNat := by
  rw [← BitVec.toNat_inj, opField_toNat]

/-- VALUE as a number: the word's remainder by 2^16 (30_encoding.md R50). -/
theorem valueField_eq_iff (w : CommandWord) (v : Value) : valueField w = v ↔ v.toNat = w.toNat % 65536 := by
  rw [eq_comm, ← BitVec.toNat_inj, valueField_toNat]

/-- The five answers of the decoder by the fields of the word (30_encoding.md R51, R52). -/
theorem decode_iff_fields (w : CommandWord) :
    (decode w = .command .init ↔ opField w = 0b00#2 ∧ valueField w = 0x0000#16) ∧
    (∀ v, decode w = .command (.refresh v) ↔ opField w = 0b01#2 ∧ valueField w = v) ∧
    (decode w = .illegal .initWithValue ↔ opField w = 0b00#2 ∧ valueField w ≠ 0x0000#16) ∧
    (decode w = .illegal .reservedOp10 ↔ opField w = 0b10#2) ∧
    (decode w = .illegal .reservedOp11 ↔ opField w = 0b11#2) := by
  obtain ⟨ho, hv, hd⟩ | ⟨ho, hv, hd⟩ | ⟨ho, hd⟩ | ⟨ho, hd⟩ | ⟨ho, hd⟩ := decode_cases w
  · simp [ho, hv, hd]
  · simp [ho, hv, hd]
  · simp [ho, hd]
  · simp [ho, hd]
  · simp [ho, hd]

/-- Settles O2: the answers of the decoder by the fields, with the fields as numbers. -/
theorem decodeFollowsOpAndValue : Obligations.DecodeFollowsOpAndValue := by
  intro w
  simpa [opField_eq_iff, valueField_eq_iff, eq_comm (a := 0)] using decode_iff_fields w

end Sys2Proof

/-! The symbol ROM (40_symbol_table.md): no command writes DP, only entries 0 to 9 are looked up, and no step changes the
configuration. -/

namespace Sys2Proof.Machine

/-! ### The decimal point -/

theorem segWrites_roles (p : Pattern) : (segWrites p).map Prod.fst = segRoles := rfl

theorem digWrites_roles (a : Level) (c : Position) :
    (digWrites a c).map Prod.fst = (positions.filter (· ≠ c)).map .dig ++ [.dig c] := by
  simp [digWrites, Function.comp_def]

/-- The lines one REFRESH writes, in order, are WRITE_ORDER (41_digit_scanner.md R75). -/
theorem refresh_writes_roles (p : Pattern) (a : Level) (c : Position) :
    (segWrites p ++ digWrites a c).map Prod.fst = writeOrder c := by
  rw [List.map_append, segWrites_roles, digWrites_roles, writeOrder, List.append_assoc]

/-- An event of a list of writes is the write of one of its lines. -/
theorem role_mem_of_wr_mem_writeEvents {r : Role} {b : Level} {ws : List (Role × Level)}
    (h : .wr r b ∈ writeEvents ws) : r ∈ ws.map Prod.fst := by
  obtain ⟨w, hw, he⟩ := List.mem_map.mp h
  obtain ⟨rfl, -⟩ := GpioEvent.wr.inj he
  exact List.mem_map_of_mem hw

/-- What one REFRESH writes is in WRITE_ORDER of the cursor it starts from. -/
theorem mem_writeOrder_of_wr_mem_refreshEvents {v : Value} {s : State} {r : Role} {b : Level}
    (h : .wr r b ∈ refreshEvents v s) : r ∈ writeOrder s.cursor := by
  rw [← refresh_writes_roles]
  exact role_mem_of_wr_mem_writeEvents h

theorem wr_dp_not_mem_refreshEvents (v : Value) (s : State) (b : Level) : .wr .dp b ∉ refreshEvents v s :=
  fun h => (mem_writeOrder _ _).mp (mem_writeOrder_of_wr_mem_refreshEvents h) rfl

/-- The events a command adds: the configurations of INIT, the writes of REFRESH, or none; none is a write of DP. -/
theorem exec_history_no_wr_dp {i : Instr} {s t : State} (h : exec i s = .next t) :
    ∃ new : List GpioEvent, t.history = s.history ++ new ∧ ∀ b : Level, .wr .dp b ∉ new := by
  obtain ⟨-, ⟨-, -, d, rfl, -⟩ | ⟨-, pre, q, post, d, -, -, -, rfl, -⟩ | ⟨v, -, -, rfl⟩ | ⟨v, -, -, rfl⟩⟩ :=
    exec_cases h
  · exact ⟨_, rfl, by simp⟩
  · exact ⟨_, rfl, by simp⟩
  · exact ⟨refreshEvents v s, refreshSteps_history v s, wr_dp_not_mem_refreshEvents v s⟩
  · exact ⟨[], by simp⟩

/-- Settles O22: the latch by `exec_latOf_dp`, the events by the lines WRITE_ORDER holds. -/
theorem decimalPointIsNeverDriven : Obligations.DecimalPointIsNeverDriven :=
  fun _ _ _ h => ⟨exec_latOf_dp h, exec_history_no_wr_dp h⟩

/-! ### Another symbol table -/

/-- Two symbol tables agree on the entries of the decimal digits (40_symbol_table.md R66). -/
abbrev AgreeOnDecimals (T U : Vector Pattern 16) : Prop := ∀ d : Digit, d.toNat ≤ 9 → T[d.toNat] = U[d.toNat]

theorem gpioConfigure_withSymbols (r : Role) (s : State) (T : Vector Pattern 16) :
    gpioConfigure r (s.withSymbols T) = ((gpioConfigure r s).1, (gpioConfigure r s).2.withSymbols T) := by
  cases h : s.config.okOf r with
  | true => rw [gpioConfigure_ok h, gpioConfigure_ok (s := s.withSymbols T) h]; rfl
  | false => rw [gpioConfigure_failed h, gpioConfigure_failed (s := s.withSymbols T) h]; rfl

/-- No configuration call reads the symbol table. -/
theorem configureAll_withSymbols (rs : List Role) (s : State) (T : Vector Pattern 16) :
    configureAll rs (s.withSymbols T) = ((configureAll rs s).1, (configureAll rs s).2.withSymbols T) := by
  induction rs generalizing s with
  | nil => rfl
  | cons r rs ih =>
    rw [configureAll, configureAll, gpioConfigure_withSymbols]
    obtain ⟨ok, u⟩ := gpioConfigure r s
    cases ok with
    | true => exact ih u
    | false => rfl

/-- INIT does the same under every symbol table. -/
theorem initBody_withSymbols (s : State) (T : Vector Pattern 16) :
    initBody (s.withSymbols T) = (initBody s).withSymbols T := by
  have hroles : (s.withSymbols T).config.dpPresent = s.config.dpPresent := rfl
  rw [initBody, initBody, hroles, configureAll_withSymbols]
  obtain ⟨ok, u⟩ := configureAll (initRoles s.config.dpPresent) s
  cases ok <;> rfl

/-- No write reads the symbol table: the levels are computed before it. -/
theorem writeAll_withSymbols (ws : List (Role × Level)) (s : State) (T : Vector Pattern 16) :
    writeAll ws (s.withSymbols T) = (writeAll ws s).withSymbols T := by
  induction ws generalizing s with
  | nil => rfl
  | cons w ws ih => exact ih (gpioWrite w.1 w.2 s)

/-- The digits REFRESH looks up are decimal (41_digit_scanner.md R71). -/
theorem digitAt_decompose_le (v : Value) (k : Position) : (digitAt (decompose v) k).toNat ≤ 9 :=
  digitAt_decompose v k ▸ placeDigit_le v.toNat k

/-- REFRESH does the same under tables that agree on the decimal digits, for it looks up no other. -/
theorem refreshSteps_withSymbols (v : Value) (s : State) {T : Vector Pattern 16}
    (hT : AgreeOnDecimals T s.config.symbolTable) :
    refreshSteps v (s.withSymbols T) = (refreshSteps v s).withSymbols T := by
  have hlook : lookup (s.withSymbols T).config (digitAt (decompose v) s.cursor) =
      lookup s.config (digitAt (decompose v) s.cursor) := hT _ (digitAt_decompose_le v s.cursor)
  have hcursor : (s.withSymbols T).cursor = s.cursor := rfl
  have hactive : (s.withSymbols T).config.digitActiveLevel = s.config.digitActiveLevel := rfl
  have hdigits : (s.withSymbols T).setDigbuf (decompose v) = (s.setDigbuf (decompose v)).withSymbols T := rfl
  simp only [refreshSteps, hcursor, hlook, hactive, hdigits, writeAll_withSymbols]
  rfl

theorem exec_init_withSymbols {s : State} (hf : s.fault = .none) (T : Vector Pattern 16) :
    exec .init (s.withSymbols T) = .next ((initBody s).withSymbols T) := by
  rw [exec_init_running (s := s.withSymbols T) hf, initBody_withSymbols]

/-- Each command does the same under tables that agree on the decimal digits. -/
theorem exec_withSymbols {i : Instr} {s t : State} {T : Vector Pattern 16}
    (hT : AgreeOnDecimals T s.config.symbolTable) (h : exec i s = .next t) :
    exec i (s.withSymbols T) = .next (t.withSymbols T) := by
  obtain ⟨hf, ⟨rfl, -, rfl⟩ | ⟨rfl, -, rfl⟩ | ⟨v, rfl, hi, rfl⟩ | ⟨v, rfl, hi, rfl⟩⟩ := exec_next h
  · exact exec_init_withSymbols hf T
  · exact exec_init_withSymbols hf T
  · rw [exec_refresh_running (s := s.withSymbols T) v hf hi, refreshSteps_withSymbols v s hT]
  · exact exec_refresh_uninitialised (s := s.withSymbols T) v hf hi

/-- Settles O24: INIT reads no symbol, and REFRESH looks up only the digits of DECOMPOSE, which are decimal. -/
theorem onlyDecimalSymbolsAreReached : Obligations.OnlyDecimalSymbolsAreReached := by
  refine ⟨fun _ _ _ _ hT h => exec_withSymbols hT h, fun s t v k h ht => ?_⟩
  rw [exec_refresh_completed h ht, refreshSteps_digbuf]
  exact digitAt_decompose_le v k

/-! ### The configuration -/

theorem exec_config {i : Instr} {s t : State} (h : exec i s = .next t) : t.config = s.config := by
  obtain ⟨-, ⟨-, -, d, rfl, -⟩ | ⟨-, _, _, _, d, -, -, -, rfl, -⟩ | ⟨v, -, -, rfl⟩ | ⟨v, -, -, rfl⟩⟩ := exec_cases h
  · rfl
  · rfl
  · exact refreshSteps_config v s
  · rfl

/-- Settles O30: a command by `exec_config`; idling, the reset event and an illegal word keep the field. -/
theorem noStepChangesTheConfiguration : Obligations.NoStepChangesTheConfiguration := by
  intro s t h
  obtain ⟨-, ⟨-, rfl⟩ | ⟨rest, -, rfl⟩ | ⟨w, rest, i, -, -, he⟩ | ⟨w, rest, why, -, -, -, rfl⟩⟩ := step_next h
  · rfl
  · rfl
  · exact (exec_config he).trans (State.setPending_config s rest)
  · rfl

end Sys2Proof.Machine

/-! The digit scanner (41_digit_scanner.md): DECOMPOSE and DIGBUF, the pattern shown, and CURSOR. -/

namespace Sys2Proof.Machine

/-! ### DECOMPOSE and DIGBUF -/

/-- A digit buffer is its four entries. -/
theorem digitAt_ext {a b : Vector Digit 4} (h : ∀ k, digitAt a k = digitAt b k) : a = b := by
  refine Vector.ext fun i hi => ?_
  have hk : (BitVec.ofNat 2 i).toNat = i := Nat.mod_eq_of_lt hi
  simpa only [digitAt, hk] using h (BitVec.ofNat 2 i)

/-- The four places of a number are those of its remainder modulo 10000. -/
theorem placeDigit_mod (n : Nat) (k : Position) : placeDigit (n % 10000) k = placeDigit n k := by
  have hplaces : 10000 = 10 ^ (3 - k.toNat) * 10 ^ (k.toNat + 1) := by
    rw [← pow_add, show 3 - k.toNat + (k.toNat + 1) = 4 by omega]
    rfl
  rw [placeDigit, placeDigit, hplaces, Nat.mod_mul_right_div_self, Nat.mod_mod_of_dvd _ (dvd_pow_self 10 (by omega))]

/-- DECOMPOSE sees only the low four decimal places of its value (41_digit_scanner.md R71). -/
theorem decompose_mod (v : Value) : decompose v = decompose (BitVec.ofNat 16 (v.toNat % 10000)) := by
  refine digitAt_ext fun k => BitVec.eq_of_toNat_eq ?_
  have hv : (BitVec.ofNat 16 (v.toNat % 10000)).toNat = v.toNat % 10000 := by
    rw [BitVec.toNat_ofNat]; omega
  rw [digitAt_decompose, digitAt_decompose, hv, placeDigit_mod]

/-- The digits of a value make up its remainder modulo 10000. -/
theorem digitAt_decompose_sum (v : Value) :
    1000 * (digitAt (decompose v) 0).toNat + 100 * (digitAt (decompose v) 1).toNat +
      10 * (digitAt (decompose v) 2).toNat + (digitAt (decompose v) 3).toNat = v.toNat % 10000 := by
  simp only [digitAt_decompose, placeDigit_sum]

/-- The only digits a command puts into DIGBUF are those of DECOMPOSE. -/
theorem exec_digbuf {i : Instr} {s t : State} (h : exec i s = .next t) :
    t.digbuf = s.digbuf ∨ ∃ v, t.digbuf = decompose v := by
  obtain ⟨-, ⟨-, -, d, rfl, -⟩ | ⟨-, _, _, _, d, -, -, -, rfl, -⟩ | ⟨v, -, -, rfl⟩ | ⟨v, -, -, rfl⟩⟩ := exec_cases h
  · exact .inl rfl
  · exact .inl rfl
  · exact .inr ⟨v, refreshSteps_digbuf v s⟩
  · exact .inl rfl

/-- Every step keeps the digits in 0..9 (41_digit_scanner.md R71). -/
theorem step_keeps_digits_decimal {s t : State} (hs : ∀ k, (digitAt s.digbuf k).toNat ≤ 9) (h : step s = .next t)
    (k : Position) : (digitAt t.digbuf k).toNat ≤ 9 := by
  obtain ⟨-, ⟨-, rfl⟩ | ⟨rest, -, rfl⟩ | ⟨w, rest, i, -, -, he⟩ | ⟨w, rest, why, -, -, -, rfl⟩⟩ := step_next h
  · exact hs k
  · have hzero : digitAt (resetEvent (s.setPending rest)).digbuf k = 0 := digitAt_resetWith s.config k
    rw [hzero]; decide
  · obtain hkept | ⟨v, hv⟩ := exec_digbuf he
    · rw [hkept]; exact hs k
    · rw [hv]; exact digitAt_decompose_le v k
  · exact hs k

/-- Settles O20: range, reconstruction and truncation by the decimal places of the value, and the range of DIGBUF by the
cases of a step. -/
theorem decomposeLaws : Obligations.DecomposeLaws :=
  ⟨digitAt_decompose_le, fun v hv => (digitAt_decompose_sum v).trans (Nat.mod_eq_of_lt (by omega)), decompose_mod,
    fun _ _ => step_keeps_digits_decimal⟩

/-! ### The pattern shown -/

theorem segLevel_eq_ite (p : Pattern) (i : Fin 7) : segLevel p i = if p.getLsbD i.val then .high else .low := by
  rw [segLevel]
  cases p.getLsbD i.val <;> rfl

/-- A REFRESH that completes shows the symbol of the digit at the entry cursor (41_digit_scanner.md R77). -/
theorem exec_refresh_showsPattern {s t : State} {v : Value} (h : exec (.refresh v) s = .next t) (ht : t.Running) :
    t.ShowsPattern (lookup s.config (digitAt t.digbuf s.cursor)) := by
  intro i
  rw [exec_refresh_completed h ht, refreshSteps_digbuf, latOf_refreshSteps_seg, segLevel_eq_ite]

/-- Two states that show one pattern have their segment lines at equal levels. -/
theorem State.ShowsPattern.latOf_seg_eq {t t' : State} {p : Pattern} (h : t.ShowsPattern p) (h' : t'.ShowsPattern p)
    (i : Fin 7) : t.latOf (.seg i) = t'.latOf (.seg i) :=
  (h i).trans (h' i).symm

/-- Settles O21: both REFRESH commands show the symbol of their digit, and one table gives equal digits one symbol. -/
theorem patternDependsOnTheDigitAlone : Obligations.PatternDependsOnTheDigitAlone := by
  intro s s' t t' v v' h ht h' ht' htable hdigit
  have hshow := exec_refresh_showsPattern h ht
  have hsymbol : lookup s'.config (digitAt t'.digbuf s'.cursor) = lookup s.config (digitAt t.digbuf s.cursor) := by
    simp only [lookup, memRead, htable, hdigit]
  exact ⟨hshow, hshow.latOf_seg_eq (hsymbol ▸ exec_refresh_showsPattern h' ht')⟩

/-! ### CURSOR -/

/-- A REFRESH that completes advances CURSOR (41_digit_scanner.md R72). -/
theorem exec_refresh_cursor {s t : State} {v : Value} (h : exec (.refresh v) s = .next t) (ht : t.Running) :
    t.cursor = s.cursor + 1 := by
  rw [exec_refresh_completed h ht, refreshSteps_cursor]

/-- A command that moves CURSOR is a REFRESH that completes. -/
theorem exec_cursor_ne {i : Instr} {s t : State} (h : exec i s = .next t) (hne : t.cursor ≠ s.cursor) :
    (∃ v, i = .refresh v) ∧ t.fault = .none := by
  obtain ⟨hf, ⟨-, -, d, rfl, -⟩ | ⟨-, _, _, _, d, -, -, -, rfl, -⟩ | ⟨v, hi, -, rfl⟩ | ⟨v, -, -, rfl⟩⟩ := exec_cases h
  · exact absurd rfl hne
  · exact absurd rfl hne
  · exact ⟨⟨v, hi⟩, (refreshSteps_fault v s).trans hf⟩
  · exact absurd rfl hne

/-- A step that moves CURSOR is a REFRESH that completes, or the reset event. -/
theorem step_cursor_ne {s t : State} (h : step s = .next t) (hne : t.cursor ≠ s.cursor) :
    (∃ w rest v, s.pending = .command w :: rest ∧ decode w = .command (.refresh v) ∧ t.fault = .none) ∨
    ∃ rest, s.pending = .reset :: rest := by
  obtain ⟨-, ⟨-, rfl⟩ | ⟨rest, hp, -⟩ | ⟨w, rest, i, hp, hd, he⟩ | ⟨w, rest, why, -, -, -, rfl⟩⟩ := step_next h
  · exact absurd rfl hne
  · exact .inr ⟨rest, hp⟩
  · obtain ⟨⟨v, rfl⟩, hf⟩ := exec_cursor_ne he hne
    exact .inl ⟨w, rest, v, hp, hd, hf⟩
  · exact absurd rfl hne

/-- Settles O26: the advance by `exec_refresh_cursor`; where CURSOR is said to stay, `step_cursor_ne` would name a REFRESH
that completes or the reset event. -/
theorem cursorMovesOnlyOnRefresh : Obligations.CursorMovesOnlyOnRefresh := by
  intro s t h
  refine ⟨fun w rest v hp hd hf => ?_, fun rest hp => ?_, fun hstay => ?_⟩
  · rw [exec_refresh_cursor (exec_of_step h hp hd) hf, State.setPending_cursor, BitVec.toNat_add]
    rfl
  · obtain ⟨ha, -⟩ := step_next h
    rw [step_reset ha hp] at h
    cases h
    rfl
  · by_contra hne
    obtain ⟨w, rest, v, hp, hd, hf⟩ | ⟨rest, hp⟩ := step_cursor_ne h hne
    · obtain hidle | ⟨w', rest', hp', hfault | hother⟩ := hstay
      · simp [hp] at hidle
      · exact hfault hf
      · obtain ⟨rfl, -⟩ : w = w' ∧ rest = rest' := by simpa [hp] using hp'
        exact hother v hd
    · simp [hp] at hstay

end Sys2Proof.Machine

/-! Exceptions (60_exceptions.md): the fault of an illegal word, of REFRESH and of INIT, the order of the checks, and what
changes the fault registers. -/

namespace Sys2Proof

/-- The only word that decodes to a command is the command's own (30_encoding.md R54). -/
theorem encode_of_decode_command {w : CommandWord} {i : Instr} (h : decode w = .command i) : encode i = w := by
  obtain ⟨hinit, hrefresh, -⟩ := decode_iff_fields w
  cases i with
  | init =>
    obtain ⟨ho, hv⟩ := hinit.mp h
    rw [encode, ← ho, ← hv, append_fields]
  | refresh v =>
    obtain ⟨ho, hv⟩ := (hrefresh v).mp h
    rw [encode, ← ho, ← hv, append_fields]

/-- The word of REFRESH as the spec writes it, `0x10000 | v` (30_encoding.md R54). -/
theorem encode_refresh_eq_or (v : Value) : encode (.refresh v) = 0x10000#18 ||| v.setWidth 18 := by
  rw [encode, BitVec.append_def]
  rfl

/-- The words of the opcode map's illegal rows (30_encoding.md R54), by OP and VALUE as numbers. -/
theorem exists_decode_illegal {w : CommandWord}
    (h : w.toNat / 65536 = 2 ∨ w.toNat / 65536 = 3 ∨ (w.toNat / 65536 = 0 ∧ w.toNat % 65536 ≠ 0)) :
    ∃ why, decode w = .illegal why := by
  obtain ⟨-, -, hvalue, hop10, hop11⟩ := decodeFollowsOpAndValue w
  obtain h | h | h := h
  · exact ⟨_, hop10.mpr h⟩
  · exact ⟨_, hop11.mpr h⟩
  · exact ⟨_, hvalue.mpr h⟩

end Sys2Proof

namespace Sys2Proof.Machine

/-! ### The three faults -/

/-- A step whose word is illegal raises F_ILLEGAL_COMMAND (60_exceptions.md R84). -/
theorem step_illegal {s : State} {w : CommandWord} {rest : List HostEvent} {why : IllegalWord}
    (ha : Accepted s.config) (hf : s.fault = .none) (hp : s.pending = .command w :: rest)
    (hd : decode w = .illegal why) :
    step s = .next (raiseFault .illegalCommand w (s.setPending rest)) := by
  rw [step_command ha hp, runWord_illegal hd]
  exact whenRunning_running hf _

/-- Settles O8: each of the three classes decodes as illegal, and an illegal word only enters its fault. -/
theorem illegalWordRaisesItsFault : Obligations.IllegalWordRaisesItsFault := by
  intro s w rest ha hf hp hw
  obtain ⟨why, hd⟩ := exists_decode_illegal hw
  exact step_illegal ha hf hp hd

/-- Settles O9: the fault entry of REFRESH, with its word as the spec writes it. -/
theorem refreshBeforeInitFaults : Obligations.RefreshBeforeInitFaults := by
  intro s v hf hi
  rw [exec_refresh_uninitialised v hf hi, encode_refresh_eq_or]
  rfl

/-- INIT where a role cannot be configured; `d` is the DIR vector it leaves (60_exceptions.md R86). -/
theorem exec_init_failed {s : State} {pre post : List Role} {q : Role} (hf : s.fault = .none)
    (hroles : s.config.rolesInUse = pre ++ q :: post) (hpre : ∀ r ∈ pre, s.config.okOf r = true)
    (hq : s.config.okOf q = false) :
    ∃ d : Vector Bool 12,
      exec .init s = .next { s with
        dir := d, fault := .configFailed, faultCmd := 0, freeCount := s.freeCount + 1,
        history := s.history ++ (pre.map (GpioEvent.cfg · true) ++ [.cfg q false]) } ∧
      ∀ r : Role, d[r.number] = if r = q then Config.freeDir s.freeCount else (decide (r ∈ pre) || s.dirOf r) := by
  obtain ⟨d, hd, hr⟩ := initBody_failed s pre post q hroles hpre hq
  exact ⟨d, by rw [exec_init_running hf, hd], hr⟩

/-- A command leaves F_CONFIG_FAILED only where the platform cannot configure some role. -/
theorem exists_okOf_false_of_configFailed {i : Instr} {s t : State} (h : exec i s = .next t)
    (ht : t.fault = .configFailed) : ∃ q, s.config.okOf q = false := by
  obtain ⟨hf, ⟨-, -, d, rfl, -⟩ | ⟨-, _, q, _, d, -, -, hq, -, -⟩ | ⟨v, -, -, rfl⟩ | ⟨v, -, -, rfl⟩⟩ := exec_cases h
  · simp [hf] at ht
  · exact ⟨q, hq⟩
  · simp [hf] at ht
  · simp at ht

/-- Settles O10: the DIR bits by the vector `exec_init_failed` gives; the failing role's bit is its free value. -/
theorem failedConfigurationHaltsInit : Obligations.FailedConfigurationHaltsInit := by
  refine ⟨fun s pre post q hf hroles hpre hq => ?_, fun s t hok h ht => ?_⟩
  · obtain ⟨d, he, hd⟩ := exec_init_failed hf hroles hpre hq
    have hne : ∀ r ∈ pre, r ≠ q := by
      rintro r hr rfl
      simp [hpre r hr] at hq
    exact ⟨_, he, fun r hr => (hd r).trans (by simp [hne r hr, hr]), fun r hr hrq => (hd r).trans (by simp [hr, hrq]),
      rfl, rfl, rfl, (List.append_assoc _ _ _).symm, rfl, rfl, rfl, rfl, rfl⟩
  · obtain ⟨q, hq⟩ := exists_okOf_false_of_configFailed h ht
    simp [hok q] at hq

/-! ### The order of the checks -/

theorem FaultCode.code_eq_zero_iff (c : FaultCode) : c.code = 0 ↔ c = .none := by
  cases c <;> decide

/-- The halt check comes before decode: a halted block takes no word (60_exceptions.md R87, R89). -/
theorem step_halted {s : State} {w : CommandWord} {rest : List HostEvent} (ha : Accepted s.config)
    (hf : s.fault ≠ .none) (hp : s.pending = .command w :: rest) : step s = .fault (.halted s.fault) := by
  rw [step_command ha hp]
  cases hd : decode w with
  | command i => rw [runWord_command hd]; exact exec_halted i hf
  | illegal why => rw [runWord_illegal hd]; exact whenRunning_halted hf _

/-- REFRESH in a running block answers, and its fault code is that of INIT_DONE (60_exceptions.md R85). -/
theorem exec_refresh_code {s : State} (v : Value) (hf : s.fault = .none) :
    ∃ t, exec (.refresh v) s = .next t ∧ t.fault.code = if s.initDone then 0 else 2 := by
  cases hi : s.initDone with
  | true => exact ⟨_, exec_refresh_running v hf hi, by simp [hf, FaultCode.code]⟩
  | false => exact ⟨_, exec_refresh_uninitialised v hf hi, rfl⟩

/-- INIT in a running block raises no fault where the platform configures every role in use. -/
theorem exec_init_code_ok {s : State} (hf : s.fault = .none) (hok : AllConfigurable s.config) :
    ∃ t, exec .init s = .next t ∧ t.fault.code = 0 := by
  obtain ⟨d, hd, -⟩ := initBody_ok s hok
  exact ⟨_, exec_init_running hf, by rw [hd]; exact (FaultCode.code_eq_zero_iff _).mpr hf⟩

/-- INIT in a running block faults at the first role in use that the platform cannot configure. -/
theorem exec_init_code_failed {s : State} {q : Role} (hf : s.fault = .none)
    (hq : s.config.rolesInUse.find? (fun r => !s.config.okOf r) = some q) :
    ∃ t, exec .init s = .next t ∧ t.fault.code = 3 ∧ t.history.getLast? = some (.cfg q false) := by
  obtain ⟨hbad, pre, post, hroles, hpre⟩ := List.find?_eq_some_iff_append.mp hq
  obtain ⟨d, he, -⟩ := exec_init_failed hf hroles (by simpa using hpre) (by simpa using hbad)
  exact ⟨_, he, rfl, by simp⟩

/-- Settles O11: the halt check by `step_halted`; then the illegal word, or the fault of the command decoded. -/
theorem faultsAreCheckedInOrder : Obligations.FaultsAreCheckedInOrder := by
  intro s w rest ha hp
  have hexec : ∀ i, decode w = .command i → step s = exec i (s.setPending rest) := fun i hd =>
    (step_command ha hp).trans (runWord_command hd _)
  refine ⟨fun hf => step_halted ha (mt (FaultCode.code_eq_zero_iff _).mpr hf) hp, fun hcode => ?_⟩
  have hf : (s.setPending rest).fault = .none := (FaultCode.code_eq_zero_iff _).mp hcode
  refine ⟨fun why hd => ⟨_, step_illegal ha hf hp hd, rfl⟩, fun v hd => ?_, fun hd hok => ?_, fun q hd hq => ?_⟩
  · rw [hexec _ hd]; exact exec_refresh_code v hf
  · rw [hexec _ hd]; exact exec_init_code_ok hf hok
  · rw [hexec _ hd]; exact exec_init_code_failed hf hq

/-! ### The fault registers -/

/-- A command that has a step starts with FAULT = 0, and keeps the fault registers or faults with its own word in
FAULT_CMD (60_exceptions.md R88, R89). -/
theorem exec_fault_registers {i : Instr} {s t : State} (h : exec i s = .next t) :
    s.fault = .none ∧
      ((t.fault = s.fault ∧ t.faultCmd = s.faultCmd) ∨ (t.fault ≠ .none ∧ t.faultCmd = encode i)) := by
  obtain ⟨hf, ⟨-, -, d, rfl, -⟩ | ⟨rfl, _, _, _, d, -, -, -, rfl, -⟩ | ⟨v, -, -, rfl⟩ | ⟨v, rfl, -, rfl⟩⟩ :=
    exec_cases h
  · exact ⟨hf, .inl ⟨rfl, rfl⟩⟩
  · exact ⟨hf, .inr ⟨by simp, rfl⟩⟩
  · exact ⟨hf, .inl ⟨refreshSteps_fault v s, refreshSteps_faultCmd v s⟩⟩
  · exact ⟨hf, .inr ⟨by simp, rfl⟩⟩

/-- Settles O13: a command by `exec_fault_registers`, where the word it was decoded from is its own. -/
theorem onlyResetClearsAFault : Obligations.OnlyResetClearsAFault := by
  intro s t h
  obtain ⟨-, ⟨-, rfl⟩ | ⟨rest, hp, rfl⟩ | ⟨w, rest, i, hp, hd, he⟩ | ⟨w, rest, why, hp, -, hf, rfl⟩⟩ := step_next h
  · exact .inl ⟨rfl, rfl⟩
  · exact .inr (.inr ⟨rest, hp, rfl, rfl⟩)
  · obtain ⟨hf, hkept | ⟨hfault, hcmd⟩⟩ := exec_fault_registers he
    · exact .inl hkept
    · exact .inr (.inl ⟨w, rest, hp, hf, hfault, hcmd.trans (encode_of_decode_command hd)⟩)
  · exact .inr (.inl ⟨w, rest, hp, hf, by simp, rfl⟩)

end Sys2Proof.Machine

/-! The reset event (70_reset_and_hazards.md section 1). -/

namespace Sys2Proof.Machine

@[simp] theorem dirOf_resetEvent (s : State) (r : Role) : (resetEvent s).dirOf r = false :=
  dirOf_resetWith s.config r

@[simp] theorem latOf_resetEvent (s : State) (r : Role) : (resetEvent s).latOf r = none :=
  latOf_resetWith s.config r

/-- Settles O33: the step is the reset event by `step_reset`, whatever FAULT holds; then each element's reset value. -/
theorem resetEventRestoresEveryElement : Obligations.ResetEventRestoresEveryElement := by
  intro s rest ha hp
  exact ⟨resetEvent (s.setPending rest), step_reset ha hp, resetEvent_cursor _, resetEvent_digbuf _,
    resetEvent_initDone _, resetEvent_fault _, resetEvent_faultCmd _, dirOf_resetEvent _, latOf_resetEvent _,
    resetEvent_config _, resetEvent_pending _⟩

end Sys2Proof.Machine

/-! The encoding, both ways (30_encoding.md): decode and encode, the rows of the opcode map, and the assembler. -/

namespace Sys2Proof

theorem decode_encode (i : Instr) : decode (encode i) = .command i := by
  cases i with
  | init => exact decode_encode_init
  | refresh v => exact decode_encode_refresh v

theorem decode_eq_command_iff (w : CommandWord) (i : Instr) : decode w = .command i ↔ encode i = w :=
  ⟨encode_of_decode_command, fun h => h ▸ decode_encode i⟩

/-- Settles O3: one way by the fields of the word, the other by decoding each command's word. -/
theorem decodeAndEncodeAgree : Obligations.DecodeAndEncodeAgree := decode_eq_command_iff

/-! ### The rows of the opcode map -/

/-- A word decodes to a REFRESH exactly when its OP is 0b01 (30_encoding.md R51). -/
theorem exists_decode_refresh_iff (w : CommandWord) :
    (∃ v, decode w = .command (.refresh v)) ↔ opField w = 0b01#2 := by
  obtain ⟨-, hrefresh, -⟩ := decode_iff_fields w
  simp [hrefresh]

/-- The mask of REFRESH's row selects OP. -/
theorem and_refresh_mask (w : CommandWord) : w &&& 0x30000#18 = opField w ++ 0x0000#16 := by
  have hmask : (0x30000#18 : CommandWord) = 0b11#2 ++ 0x0000#16 := rfl
  have hop : opField w &&& 0b11#2 = opField w := BitVec.and_allOnes
  rw [← append_fields w, hmask, BitVec.and_append, opField_append, hop, BitVec.and_zero]

theorem and_init_mask (w : CommandWord) : w &&& 0x3FFFF#18 = w := BitVec.and_allOnes

theorem refresh_row_iff (w : CommandWord) : w &&& 0x30000#18 = 0x10000#18 ↔ opField w = 0b01#2 := by
  have hmatch : (0x10000#18 : CommandWord) = 0b01#2 ++ 0x0000#16 := rfl
  rw [and_refresh_mask, hmatch]
  refine ⟨fun h => ?_, fun h => by rw [h]⟩
  rw [← opField_append (opField w) 0x0000#16, h, opField_append]

/-- Settles O4: INIT's mask keeps the whole word, REFRESH's keeps OP; the two rows differ in OP. -/
theorem opcodeRowsMatchTheDecoder : Obligations.OpcodeRowsMatchTheDecoder := by
  intro w
  rw [exists_decode_refresh_iff, refresh_row_iff, and_init_mask, decode_eq_command_iff]
  refine ⟨eq_comm, Iff.rfl, ?_⟩
  rintro ⟨rfl, hop⟩
  exact absurd hop (by decide)

/-! ### The assembler -/

theorem assemble_init (o : Option Nat) : assemble ⟨.init, o⟩ = if o = none then some .init else none := by
  cases o <;> rfl

theorem assemble_refresh_none : assemble ⟨.refresh, none⟩ = none := rfl

theorem assemble_refresh_some (n : Nat) :
    assemble ⟨.refresh, some n⟩ = if n ≤ 65535 then some (.refresh (BitVec.ofNat 16 n)) else none := by
  simp [assemble, SourceCommand.wellFormed, SourceCommand.initHasNoOperand, SourceCommand.refreshHasOperand,
    SourceCommand.operandFits]

/-- An immediate stands for the operand whose number it is, if there is one. -/
theorem ofNat_eq_iff_of_le {n : Nat} (hn : n ≤ 65535) (v : Value) : BitVec.ofNat 16 n = v ↔ n = v.toNat := by
  rw [← BitVec.toNat_inj, BitVec.toNat_ofNat, Nat.mod_eq_of_lt (by omega)]

/-- A source command assembles to a command exactly when it is its source form (30_encoding.md R56). -/
theorem assemble_eq_some_iff (c : SourceCommand) (i : Instr) : assemble c = some i ↔ c = disassemble i := by
  obtain ⟨m, o⟩ := c
  cases m with
  | init =>
    rw [assemble_init]
    cases i <;> simp [disassemble, eq_comm]
  | refresh =>
    cases o with
    | none => cases i <;> simp [assemble_refresh_none, disassemble]
    | some n =>
      rw [assemble_refresh_some]
      cases i with
      | init => simp [disassemble]
      | refresh v =>
        by_cases hn : n ≤ 65535
        · simp [hn, disassemble, ofNat_eq_iff_of_le hn]
        · have hne : n ≠ v.toNat := by omega
          simp [hn, hne, disassemble]

/-- Settles O5: the accepted forms by `assemble_eq_some_iff`, the range by what REFRESH with an immediate assembles
to. -/
theorem assemblerAcceptsExactlyTheCommands : Obligations.AssemblerAcceptsExactlyTheCommands :=
  ⟨assemble_eq_some_iff, fun n => by simp [assemble_refresh_some], fun _ => rfl, rfl, encode_refresh_eq_or⟩

/-- Settles O1: the ten words are closed terms. -/
theorem decodeOfTheSpecsSampleWords : Obligations.DecodeOfTheSpecsSampleWords := by
  unfold Obligations.DecodeOfTheSpecsSampleWords
  decide

end Sys2Proof

/-! Commands over the lines: the events of a REFRESH in order, what each command leaves, and its frame
(41_digit_scanner.md sections 1, 4 and 5; 20_memory.md section 7). -/

namespace Sys2Proof.Machine

/-! ### The events of a REFRESH, in order -/

/-- The segment writes of a REFRESH that shows `p`, SEG_A first. -/
def segEvents (p : Pattern) : List GpioEvent := (List.finRange 7).map fun i => .wr (.seg i) (segLevel p i)

/-- The inactive digit-select writes of a REFRESH at cursor `c`, in ascending order. -/
def inactiveEvents (active : Level) (c : Position) : List GpioEvent :=
  (positions.filter (· ≠ c)).map fun k => .wr (.dig k) active.inverse

theorem writeEvents_segWrites (p : Pattern) : writeEvents (segWrites p) = segEvents p := rfl

theorem writeEvents_digWrites (a : Level) (c : Position) :
    writeEvents (digWrites a c) = inactiveEvents a c ++ [.wr (.dig c) a] := by
  have hinactive : ∀ k ∈ positions.filter (· ≠ c), GpioEvent.wr (.dig k) (digLevel a c k) = .wr (.dig k) a.inverse := by
    intro k hk
    have hne : k ≠ c := by simpa using (List.mem_filter.mp hk).2
    rw [digLevel, if_neg hne]
  simp only [writeEvents, digWrites, inactiveEvents, List.map_append, List.map_map, ← List.map_congr_left hinactive]
  simp [digLevel, Function.comp_def]

/-- One REFRESH writes the segments, then the inactive lines, then the active one (41_digit_scanner.md R75). -/
theorem refreshEvents_eq (v : Value) (s : State) :
    refreshEvents v s = segEvents (lookup s.config (digitAt (decompose v) s.cursor)) ++
      inactiveEvents s.config.digitActiveLevel s.cursor ++ [.wr (.dig s.cursor) s.config.digitActiveLevel] := by
  rw [List.append_assoc, ← writeEvents_digWrites, ← writeEvents_segWrites, refreshEvents, writeEvents, List.map_append]
  rfl

theorem wr_dig_not_mem_segEvents (p : Pattern) (k : Position) (l : Level) : .wr (.dig k) l ∉ segEvents p := by
  simp [segEvents]

theorem wr_dig_mem_inactiveEvents (a l : Level) (c k : Position) :
    .wr (.dig k) l ∈ inactiveEvents a c ↔ k ≠ c ∧ l = a.inverse := by
  simp [inactiveEvents, mem_positions, eq_comm (a := l)]

/-- Settles O19: the order by `refreshEvents_eq`, each segment's level as a bit of the pattern. -/
theorem refreshWritesInOrder : Obligations.RefreshWritesInOrder := by
  intro s t v h ht
  rw [exec_refresh_completed h ht, refreshSteps_history, refreshEvents_eq, ← refreshSteps_digbuf v s]
  simp only [segEvents, segLevel_eq_ite]
  rfl

/-! ### What a REFRESH leaves -/

theorem digActive_eq_iff {s : State} {k : Position} {l : Level} (h : s.latOf (.dig k) = some l) :
    s.digActive k = some (decide (l = s.config.digitActiveLevel)) := by
  rw [State.digActive, h]; rfl

theorem digLevel_self (a : Level) (c : Position) : digLevel a c c = a := if_pos rfl

theorem digLevel_of_ne (a : Level) {c k : Position} (h : k ≠ c) : digLevel a c k = a.inverse := if_neg h

theorem digLevel_eq_active_iff (a : Level) (c k : Position) : digLevel a c k = a ↔ k = c := by
  by_cases h : k = c
  · simp [h, digLevel_self]
  · simp [h, digLevel_of_ne]

/-- After the five steps only the line of the entry cursor is active (41_digit_scanner.md R76). -/
theorem refreshSteps_onlyActive (v : Value) (s : State) : (refreshSteps v s).OnlyActive s.cursor := by
  intro j
  rw [digActive_eq_iff (latOf_refreshSteps_dig v s j), refreshSteps_config]
  simp only [digLevel_eq_active_iff]

/-- The five steps show the symbol of the digit at the entry cursor (41_digit_scanner.md R77). -/
theorem refreshSteps_showsPattern (v : Value) (s : State) :
    (refreshSteps v s).ShowsPattern (lookup s.config (digitAt (decompose v) s.cursor)) := by
  intro i
  rw [latOf_refreshSteps_seg, segLevel_eq_ite]

/-- The position before the one after `c` is `c` (CURSOR is modulo 4). -/
theorem position_add_one_add_three (c : Position) : c + 1 + 3 = c := by revert c; decide

theorem position_add_one_toNat (c : Position) : (c + 1).toNat = (c.toNat + 1) % 4 := BitVec.toNat_add c 1

/-- Settles O17: the state after the five steps, element by element. -/
theorem refreshShowsTheDigitAtTheCursor : Obligations.RefreshShowsTheDigitAtTheCursor := by
  intro s v hf hi
  have he := exec_refresh_running v hf hi
  have ht : (refreshSteps v s).Running := (refreshSteps_fault v s).trans hf
  have hdigit : ∀ k, (digitAt (refreshSteps v s).digbuf k).toNat = placeDigit v.toNat k := fun k => by
    rw [refreshSteps_digbuf, digitAt_decompose]
  refine ⟨refreshSteps v s, he, hdigit 0, hdigit 1, hdigit 2, (hdigit 3).trans (by simp [placeDigit]),
    exec_refresh_showsPattern he ht, ?_, fun k hk => ?_, latOf_refreshSteps_dp v s,
    position_add_one_toNat s.cursor, refreshSteps_dir v s, (refreshSteps_initDone v s).trans hi, ht, refreshSteps_faultCmd v s,
    refreshSteps_config v s, refreshSteps_pending v s, refreshSteps_freeCount v s⟩
  · rw [latOf_refreshSteps_dig, digLevel_self]
  · rw [latOf_refreshSteps_dig, digLevel_of_ne _ hk]

/-- A REFRESH that answers is its five steps or its fault entry (60_exceptions.md R85). -/
theorem exec_refresh_cases {s t : State} {v : Value} (h : exec (.refresh v) s = .next t) :
    t = refreshSteps v s ∨ t = raiseFault .notInitialised (encode (.refresh v)) s := by
  obtain ⟨hf, -⟩ := exec_next h
  cases hi : s.initDone with
  | true => rw [exec_refresh_running v hf hi] at h; exact .inl (Host.Outcome.next.inj h).symm
  | false => rw [exec_refresh_uninitialised v hf hi] at h; exact .inr (Host.Outcome.next.inj h).symm

/-- Settles O18: the frame of the five steps, and that of the fault entry. -/
theorem refreshFrame : Obligations.RefreshFrame := by
  intro s t v h
  obtain ⟨hf, -⟩ := exec_next h
  obtain rfl | rfl := exec_refresh_cases h
  · exact ⟨refreshSteps_dir v s, refreshSteps_initDone v s, latOf_refreshSteps_dp v s, refreshSteps_config v s,
      refreshSteps_pending v s, refreshSteps_freeCount v s, fun ht => absurd ((refreshSteps_fault v s).trans hf) ht⟩
  · exact ⟨rfl, rfl, rfl, rfl, rfl, rfl, fun _ => ⟨rfl, rfl, rfl, rfl⟩⟩

/-- Settles O25: an accepted configuration has the given entry, and a completing REFRESH shows it for a digit 9. -/
theorem nineShowsItsPattern : Obligations.NineShowsItsPattern := by
  intro s t h
  obtain ⟨ha, -⟩ := step_next h
  have hnine : lookup s.config 9 = 0x6F#7 := of_decide_eq_true ((configRefusal_none_iff s.config).mp ha).2
  refine ⟨hnine, fun v rest hp ht hdigit i => ?_⟩
  rw [← encode_refresh_eq_or] at hp
  have hshow := exec_refresh_showsPattern (exec_of_step h hp (decode_encode_refresh v)) ht
  rw [State.setPending_cursor, State.setPending_config, hdigit, hnine] at hshow
  rw [hshow i]
  revert i
  decide

/-! ### INIT -/

theorem exists_role_number (n : Fin 12) : ∃ r : Role, r.number = n := by
  obtain h | h | h : n.val < 7 ∨ n.val = 7 ∨ 7 < n.val := by omega
  · exact ⟨.seg ⟨n.val, h⟩, rfl⟩
  · exact ⟨.dp, Fin.ext h.symm⟩
  · refine ⟨.dig (BitVec.ofNat 2 (n.val - 8)), Fin.ext ?_⟩
    simp only [Role.number, BitVec.toNat_ofNat]
    omega

/-- A vector over the roles is its entries. -/
theorem ext_roles {α : Type} {a b : Vector α 12} (h : ∀ r : Role, a[r.number] = b[r.number]) : a = b := by
  refine Vector.ext fun n hn => ?_
  obtain ⟨r, hr⟩ := exists_role_number ⟨n, hn⟩
  simpa [hr] using h r

/-- INIT in a running block whose roles can be configured; `d` is the DIR vector it leaves. -/
theorem exec_init_ok {s : State} (hf : s.fault = .none) (hok : AllConfigurable s.config) :
    ∃ d : Vector Bool 12,
      exec .init s = .next { s with
        dir := d, initDone := true,
        history := s.history ++ s.config.rolesInUse.map (GpioEvent.cfg · true) } ∧
      ∀ r : Role, d[r.number] = (decide (r ∈ s.config.rolesInUse) || s.dirOf r) := by
  obtain ⟨d, hd, hr⟩ := initBody_ok s hok
  exact ⟨d, by rw [exec_init_running hf, hd], hr⟩

/-- The configuration calls of an INIT, written out in order (41_digit_scanner.md R74). -/
theorem rolesInUse_map_cfg (c : Config) :
    c.rolesInUse.map (GpioEvent.cfg · true) = (List.finRange 7).map (fun i => GpioEvent.cfg (.seg i) true) ++
      (if c.dpPresent then [.cfg .dp true] else []) ++
      [.cfg (.dig 0) true, .cfg (.dig 1) true, .cfg (.dig 2) true, .cfg (.dig 3) true] := by
  rw [Config.rolesInUse]
  cases c.dpPresent <;> rfl

/-- Settles O14: the DIR bits by the vector `exec_init_ok` gives, the calls by `rolesInUse_map_cfg`. -/
theorem initMakesTheLinesOutputs : Obligations.InitMakesTheLinesOutputs := by
  intro s hf hok
  obtain ⟨d, he, hd⟩ := exec_init_ok hf hok
  refine ⟨_, he, fun i => (hd (.seg i)).trans (by simp [Config.mem_rolesInUse]),
    fun k => (hd (.dig k)).trans (by simp [Config.mem_rolesInUse]), (hd .dp).trans ?_, rfl,
    congrArg (s.history ++ ·) (rolesInUse_map_cfg s.config), rfl, rfl, rfl, hf, rfl, rfl, rfl, rfl⟩
  cases hdp : s.config.dpPresent <;> simp [Config.mem_rolesInUse, hdp]

/-- Settles O15: the two states INIT can leave, and `exec_dirOf_unused` for an absent DP. -/
theorem initLeavesTheScanAlone : Obligations.InitLeavesTheScanAlone := by
  intro s t h
  have hdp : s.config.dpPresent = false → t.dirOf .dp = s.dirOf .dp := fun hdp =>
    exec_dirOf_unused h (by simp [Config.mem_rolesInUse, hdp])
  obtain ⟨-, ⟨-, -, d, rfl, -⟩ | ⟨-, _, _, _, d, -, -, -, rfl, -⟩ | ⟨_, hi, -⟩ | ⟨_, hi, -⟩⟩ := exec_cases h
  · exact ⟨rfl, rfl, rfl, rfl, rfl, hdp, fun _ => rfl, fun _ => ⟨rfl, rfl⟩⟩
  · exact ⟨rfl, rfl, rfl, rfl, rfl, hdp, id, nofun⟩
  · cases hi
  · cases hi

/-- Settles O16: the second INIT completes too, and sets only DIR bits that the first has set. -/
theorem initAgainChangesNothing : Obligations.InitAgainChangesNothing := by
  intro s t h ht
  obtain ⟨hok, d, rfl, hd⟩ := exec_init_completed h ht
  obtain ⟨d', he, hd'⟩ := exec_init_ok ht hok
  obtain rfl : d' = d := ext_roles fun r => by
    rw [hd' r, State.dirOf, hd r, ← Bool.or_assoc, Bool.or_self]
  exact he

/-- Settles O23: the line of the entry cursor, which is the one before CURSOR; INIT writes no latch and not CURSOR. -/
theorem exactlyOneLineActiveAfterRefresh : Obligations.ExactlyOneLineActiveAfterRefresh := by
  intro s t v h ht
  have hactive : t.OnlyActive (t.cursor + 3) := by
    rw [exec_refresh_completed h ht, refreshSteps_cursor, position_add_one_add_three]
    exact refreshSteps_onlyActive v s
  refine ⟨hactive, fun u hu j => ?_⟩
  obtain ⟨hcursor, -, hlat, hconfig, -⟩ := initLeavesTheScanAlone t u hu
  rw [hcursor, ← hactive j, State.digActive, State.digActive, State.latOf, State.latOf, hlat, hconfig]

/-! ### Bounded work -/

theorem rolesInUse_length (c : Config) : c.rolesInUse.length = if c.dpPresent then 12 else 11 :=
  initRoles_length c.dpPresent

theorem rolesInUse_length_le (c : Config) : c.rolesInUse.length ≤ 12 := by
  rw [rolesInUse_length]
  split <;> decide

/-- Settles O31: the events each command adds, by its cases; a failing INIT stops among the roles in use. -/
theorem commandsDoBoundedWork : Obligations.CommandsDoBoundedWork := by
  intro i s t h
  obtain ⟨hf, ⟨rfl, -, d, rfl, -⟩ | ⟨rfl, pre, q, post, d, hroles, -, -, rfl, -⟩ | ⟨v, rfl, -, rfl⟩ |
    ⟨v, rfl, -, rfl⟩⟩ := exec_cases h
  · exact ⟨_, rfl, by simpa using rolesInUse_length_le s.config, fun _ _ => by simp [rolesInUse_length], nofun, nofun⟩
  · have hlen : pre.length + (post.length + 1) ≤ 12 := by simpa [hroles] using rolesInUse_length_le s.config
    refine ⟨_, rfl, ?_, nofun, nofun, nofun⟩
    simp only [List.length_append, List.length_map, List.length_singleton]
    omega
  · exact ⟨_, refreshSteps_history v s, by simp [refreshEvents_length], nofun, fun _ _ _ => refreshEvents_length v s,
      fun _ ht => absurd ((refreshSteps_fault v s).trans hf) ht⟩
  · exact ⟨[], by simp, by simp, nofun, fun _ ht => by simp at ht, fun _ _ _ => rfl⟩

end Sys2Proof.Machine

/-! The step and the configurations it refuses (10_state.md section 4, 60_exceptions.md section 2). -/

namespace Sys2Proof.Machine

/-- Settles O6: the step takes the word, and the word runs the command it decodes to. -/
theorem stepRunsTheDecodedCommand : Obligations.StepRunsTheDecodedCommand :=
  fun s _ rest _ ha hp hd => (step_command ha hp).trans (runWord_command hd (s.setPending rest))

/-- Settles O7: an idle step. -/
theorem waitingChangesNothing : Obligations.WaitingChangesNothing := fun _ => step_idle

/-- Settles O12: the halt check of both commands, and of every word before it is decoded. -/
theorem haltedBlockTakesNoCommand : Obligations.HaltedBlockTakesNoCommand :=
  fun _ hf => ⟨fun i => exec_halted i hf, fun _ _ ha hp => step_halted ha hf hp⟩

/-! ### Refused configurations -/

theorem step_refused {s : State} {why : Refusal} (h : configRefusal s.config = some why) : step s = .refused why := by
  simp [step, h]

theorem pinMapInjective_iff (c : Config) :
    c.pinMapInjective = true ↔ ∀ r ∈ c.rolesInUse, ∀ q ∈ c.rolesInUse, c.pinOf r = c.pinOf q → r = q := by
  rw [Config.pinMapInjective, decide_eq_true_iff]
  exact (List.nodup_map_iff_inj_on (initRoles_nodup c.dpPresent)).trans
    ⟨fun h r hr q hq => h r hr q hq, fun h r hr q hq => h r hr q hq⟩

theorem symbolNineGiven_iff (c : Config) : c.symbolNineGiven = true ↔ c.symbolTable[9] = 0x6F#7 :=
  decide_eq_true_iff

theorem whenRunning_ne_refused (s k : State) (why : Refusal) : whenRunning s k ≠ .refused why := by
  by_cases hf : s.fault = .none
  · simp [whenRunning_running hf]
  · simp [whenRunning_halted hf]

/-- Nothing the host issues is refused: a command, an illegal word and the reset event all have a meaning. -/
theorem runEvent_ne_refused (e : HostEvent) (s : State) (why : Refusal) : runEvent e s ≠ .refused why := by
  cases e with
  | reset => simp [runEvent]
  | command w =>
    rw [runEvent]
    cases hd : decode w with
    | illegal c => rw [runWord_illegal hd]; exact whenRunning_ne_refused _ _ _
    | command i =>
      rw [runWord_command hd]
      cases i <;> exact whenRunning_ne_refused _ _ _

/-- Under an accepted configuration no step is refused. -/
theorem step_ne_refused {s : State} (ha : Accepted s.config) (why : Refusal) : step s ≠ .refused why := by
  rw [step_accepted ha, takeNext]
  split
  · simp
  · exact runEvent_ne_refused _ _ _

/-- Settles O34: `configRefusal` by its two constraints, and `step_ne_refused` where both hold. -/
theorem badConfigurationsAreRefused : Obligations.BadConfigurationsAreRefused := by
  refine ⟨fun s r q hr hq hne hpin => ?_, fun s hnine => ?_, fun s hinj hnine why => ?_⟩
  · have hbad : s.config.pinMapInjective = false :=
      Bool.eq_false_iff.mpr fun h => hne ((pinMapInjective_iff _).mp h r hr q hq hpin)
    exact step_refused (by simp [configRefusal, hbad])
  · have hbad : configRefusal s.config ≠ none := fun h =>
      hnine ((symbolNineGiven_iff _).mp ((configRefusal_none_iff _).mp h).2)
    obtain ⟨why, hwhy⟩ := Option.ne_none_iff_exists'.mp hbad
    exact ⟨why, step_refused hwhy⟩
  · have ha : Accepted s.config :=
      (configRefusal_none_iff _).mpr ⟨(pinMapInjective_iff _).mpr hinj, (symbolNineGiven_iff _).mpr hnine⟩
    exact step_ne_refused ha why

/-! ### What is seen of a line -/

theorem pinObs_undriven {s : State} {r : Role} (hd : s.dirOf r = false) : s.pinObs r = .undriven := by
  simp [State.pinObs, hd]

theorem pinObs_unknown {s : State} {r : Role} (hd : s.dirOf r = true) (hl : s.latOf r = none) :
    s.pinObs r = .unknown := by
  simp [State.pinObs, hd, hl]

theorem pinObs_driven {s : State} {r : Role} {b : Level} (hd : s.dirOf r = true) (hl : s.latOf r = some b) :
    s.pinObs r = .driven b := by
  simp [State.pinObs, hd, hl]

/-- On an injective board the role in use on a role's pin is that role (10_state.md R26). -/
theorem find?_rolesInUse_pinOf {c : Config} (hinj : c.pinMapInjective = true) {r : Role} (hr : r ∈ c.rolesInUse) :
    c.rolesInUse.find? (fun q => decide (c.pinOf q = c.pinOf r)) = some r := by
  cases hfind : c.rolesInUse.find? (fun q => decide (c.pinOf q = c.pinOf r)) with
  | none => simpa using List.find?_eq_none.mp hfind r hr
  | some q =>
    have hpin : c.pinOf q = c.pinOf r := by simpa using List.find?_some hfind
    rw [Config.pinOf_inj hinj (List.mem_of_find?_eq_some hfind) hr hpin]

/-- Settles O35: the pin's role is found by injectivity; then the three cases of PINOBS. -/
theorem pinsShowTheirRole : Obligations.PinsShowTheirRole := by
  intro s r ha hr
  have hinj : s.config.pinMapInjective = true := ((configRefusal_none_iff _).mp ha).1
  refine ⟨?_, pinObs_undriven, pinObs_unknown, fun _ => pinObs_driven⟩
  rw [State.observePin, find?_rolesInUse_pinOf hinj hr]
  rfl

/-! ### Reset, INIT, first REFRESH -/

theorem JustReset.fault {s : State} (h : JustReset s) : s.fault = .none := (congrArg State.fault h).symm

theorem JustReset.cursor {s : State} (h : JustReset s) : s.cursor = 0 := (congrArg State.cursor h).symm

theorem JustReset.dirOf {s : State} (h : JustReset s) (r : Role) : s.dirOf r = false :=
  (congrArg (State.dirOf · r) h).symm.trans (dirOf_resetEvent s r)

theorem JustReset.latOf {s : State} (h : JustReset s) (r : Role) : s.latOf r = none :=
  (congrArg (State.latOf · r) h).symm.trans (latOf_resetEvent s r)

/-- A REFRESH leaves every line but DP at a known level. -/
theorem exists_latOf_refreshSteps (v : Value) (s : State) {r : Role} (hr : r ≠ .dp) :
    ∃ b, (refreshSteps v s).latOf r = some b := by
  obtain ⟨b, -, hb⟩ := exists_wr_mem_refreshEvents v s hr
  exact ⟨b, hb⟩

/-- Settles O36: reset leaves no output and no level, INIT makes the outputs, REFRESH at CURSOR = 0 gives the levels. -/
theorem displayDuringBoot : Obligations.DisplayDuringBoot := by
  intro s v hreset hok
  obtain ⟨d, hinit, hd⟩ := exec_init_ok hreset.fault hok
  refine ⟨fun r => pinObs_undriven (hreset.dirOf r), _, _, hinit, exec_refresh_running v hreset.fault rfl,
    fun r hr => pinObs_unknown ((hd r).trans (by simp [hr])) (hreset.latOf r), fun r hr hne => ?_, ?_, ?_⟩
  · obtain ⟨b, hb⟩ := exists_latOf_refreshSteps v _ hne
    exact ⟨b, pinObs_driven ((dirOf_refreshSteps v _ r).trans ((hd r).trans (by simp [hr]))) hb⟩
  · rw [← hreset.cursor]
    exact refreshSteps_onlyActive v _
  · rw [refreshSteps_cursor]
    exact congrArg (· + 1) hreset.cursor

end Sys2Proof.Machine

/-! The invariants (10_state.md, 41_digit_scanner.md section 5, 60_exceptions.md, 20_memory.md section 7,
70_reset_and_hazards.md section 3): each holds at reset and is kept by every step. -/

namespace Sys2Proof.Machine

/-! ### The scan invariant -/

theorem scanInv_resetEvent (s : State) : ScanInv (resetEvent s) where
  digitsDecimal k := by
    have hzero : digitAt (resetEvent s).digbuf k = 0 := digitAt_resetWith s.config k
    rw [hzero]; decide
  dpUnwritten := latOf_resetEvent s .dp
  configured := nofun
  outputsAreOk _ r hr := by simp at hr
  display := .inl (latOf_resetEvent s)

theorem ScanInv.setPending {s : State} (h : ScanInv s) (p : List HostEvent) : ScanInv (s.setPending p) :=
  ⟨h.digitsDecimal, h.dpUnwritten, h.configured, h.outputsAreOk, h.display⟩

/-- A fault entry keeps the scan: of INIT's fault the invariant claims no output. -/
theorem ScanInv.raiseFault {s : State} (h : ScanInv s) (hf : s.fault = .none) (c : FaultCode) (w : CommandWord) :
    ScanInv (raiseFault c w s) :=
  ⟨h.digitsDecimal, h.dpUnwritten, h.configured, fun _ => h.outputsAreOk (by simp [hf]), h.display⟩

/-- Where some role in use cannot be configured, no INIT has completed. -/
theorem ScanInv.initDone_eq_false {s : State} (h : ScanInv s) {q : Role} (hq : q ∈ s.config.rolesInUse)
    (hbad : s.config.okOf q = false) : s.initDone = false := by
  refine Bool.eq_false_iff.mpr fun hdone => ?_
  obtain ⟨hok, -⟩ := h.configured hdone q hq
  simp [hbad] at hok

/-- Commands keep the digits decimal. -/
theorem exec_keeps_digits_decimal {i : Instr} {s t : State} (h : exec i s = .next t)
    (hs : ∀ k, (digitAt s.digbuf k).toNat ≤ 9) (k : Position) : (digitAt t.digbuf k).toNat ≤ 9 := by
  obtain hkept | ⟨v, hv⟩ := exec_digbuf h
  · rw [hkept]; exact hs k
  · rw [hv]; exact digitAt_decompose_le v k

/-- Of the cases, an INIT that completes makes outputs only of lines in use, which could all be configured; one that
fails finds INIT_DONE 0; and after a REFRESH the entry cursor is the position before CURSOR. -/
theorem exec_keeps_scanInv {i : Instr} {s t : State} (hinv : ScanInv s) (h : exec i s = .next t) : ScanInv t := by
  have hdigits := exec_keeps_digits_decimal h hinv.digitsDecimal
  have hdp : t.latOf .dp = none := (exec_latOf_dp h).trans hinv.dpUnwritten
  obtain ⟨hf, ⟨-, hok, d, rfl, hd⟩ | ⟨-, pre, q, post, d, hroles, -, hq, rfl, -⟩ | ⟨v, -, hdone, rfl⟩ |
    ⟨v, -, -, rfl⟩⟩ := exec_cases h
  · have hout : ∀ r, s.dirOf r = true → s.config.okOf r = true := hinv.outputsAreOk (by simp [hf])
    refine ⟨hdigits, hdp, fun _ r hr => ⟨hok r hr, (hd r).trans (by simp [hr])⟩, fun _ r hr => ?_,
      hinv.display.imp_right fun ⟨_, hactive, hshow⟩ => ⟨rfl, hactive, hshow⟩⟩
    have hdir := (hd r).symm.trans hr
    obtain hmem | hwas : r ∈ s.config.rolesInUse ∨ s.dirOf r = true := by simpa using hdir
    · exact hok r hmem
    · exact hout r hwas
  · have hundone : s.initDone = false := hinv.initDone_eq_false (by simp [hroles]) hq
    refine ⟨hdigits, hdp, fun hdone => ?_, fun hne => absurd rfl hne, hinv.display⟩
    exact absurd (hundone.symm.trans hdone) (by simp)
  · refine ⟨hdigits, hdp, fun _ r => ?_, fun _ r => ?_, .inr ?_⟩
    · rw [refreshSteps_config, dirOf_refreshSteps]
      exact hinv.configured hdone r
    · rw [refreshSteps_config, dirOf_refreshSteps]
      exact hinv.outputsAreOk (by simp [hf]) r
    · rw [refreshSteps_initDone, refreshSteps_cursor, refreshSteps_digbuf, refreshSteps_config,
        position_add_one_add_three]
      exact ⟨hdone, refreshSteps_onlyActive v s, refreshSteps_showsPattern v s⟩
  · exact hinv.raiseFault hf _ _

/-- Settles O38: a command by `exec_keeps_scanInv`; the reset event restores it and an illegal word keeps it. -/
theorem stepKeepsTheScanInvariant : Obligations.StepKeepsTheScanInvariant := by
  intro s t hinv h
  obtain ⟨-, ⟨-, rfl⟩ | ⟨rest, -, rfl⟩ | ⟨w, rest, i, -, -, he⟩ | ⟨w, rest, why, -, -, hf, rfl⟩⟩ := step_next h
  · exact hinv
  · exact scanInv_resetEvent _
  · exact exec_keeps_scanInv (hinv.setPending rest) he
  · exact (hinv.setPending rest).raiseFault hf _ _

/-! ### The fault record -/

theorem faultInv_of_none {s : State} (hf : s.fault = .none) (hw : s.faultCmd = 0) : FaultInv s := by
  simpa [FaultInv, hf] using hw

theorem FaultInv.faultCmd_eq_zero {s : State} (h : FaultInv s) (hf : s.fault = .none) : s.faultCmd = 0 := by
  simpa [FaultInv, hf] using h

/-- A command that faults leaves its own word, and INIT_DONE is 0 where it does. -/
theorem exec_keeps_faultInv {i : Instr} {s t : State} (hscan : ScanInv s) (hinv : FaultInv s)
    (h : exec i s = .next t) : FaultInv t := by
  obtain ⟨hf, ⟨-, -, d, rfl, -⟩ | ⟨-, pre, q, post, d, hroles, -, hq, rfl, -⟩ | ⟨v, -, -, rfl⟩ |
    ⟨v, -, hundone, rfl⟩⟩ := exec_cases h
  · exact faultInv_of_none hf (hinv.faultCmd_eq_zero hf)
  · exact ⟨decode_encode_init, hscan.initDone_eq_false (by simp [hroles]) hq⟩
  · exact faultInv_of_none ((refreshSteps_fault v s).trans hf)
      ((refreshSteps_faultCmd v s).trans (hinv.faultCmd_eq_zero hf))
  · exact ⟨⟨v, decode_encode_refresh v⟩, hundone⟩

/-- Settles O39: a command by `exec_keeps_faultInv`; an illegal word is the word its fault leaves. -/
theorem stepKeepsTheFaultRecord : Obligations.StepKeepsTheFaultRecord := by
  intro s t hscan hinv h
  obtain ⟨-, ⟨-, rfl⟩ | ⟨rest, -, rfl⟩ | ⟨w, rest, i, -, -, he⟩ | ⟨w, rest, why, -, hd, -, rfl⟩⟩ := step_next h
  · exact hinv
  · exact faultInv_of_none rfl rfl
  · exact exec_keeps_faultInv (hscan.setPending rest) hinv he
  · exact ⟨why, hd⟩

/-! ### The history -/

theorem historyInv_resetEvent (s : State) : HistoryInv (resetEvent s) where
  latches := latOf_resetEvent s
  outputs r _ := by simp

/-- A list of configuration calls writes no latch. -/
theorem wr_not_mem_map_cfg (rs : List Role) (r : Role) (l : Level) : .wr r l ∉ rs.map (GpioEvent.cfg · true) := by
  simp

theorem wr_not_mem_failed_cfgs (pre : List Role) (q r : Role) (l : Level) :
    .wr r l ∉ pre.map (GpioEvent.cfg · true) ++ [.cfg q false] := by
  simp

theorem latOf_of_lat_eq {s t : State} (h : t.lat = s.lat) (r : Role) : t.latOf r = s.latOf r := by
  rw [State.latOf, State.latOf, h]

/-- The events a command adds account for what it does to the lines: each latch is what they write last, and a line the
platform can configure becomes an output exactly where they configure it. -/
theorem exec_events {i : Instr} {s t : State} (h : exec i s = .next t) :
    ∃ new, t.history = s.history ++ new ∧ (∀ r, t.latOf r = levelAfter r (s.latOf r) new) ∧
      ∀ r, s.config.okOf r = true → (t.dirOf r = true ↔ s.dirOf r = true ∨ .cfg r true ∈ new) := by
  obtain ⟨-, ⟨-, -, d, rfl, hd⟩ | ⟨-, pre, q, post, d, -, -, hq, rfl, hd⟩ | ⟨v, -, -, rfl⟩ | ⟨v, -, -, rfl⟩⟩ :=
    exec_cases h
  · refine ⟨_, rfl, fun r => (levelAfter_of_no_write r _ _ (wr_not_mem_map_cfg _ r)).symm, fun r _ => ?_⟩
    rw [State.dirOf, hd r]
    simp [or_comm]
  · refine ⟨_, rfl, fun r => (levelAfter_of_no_write r _ _ (wr_not_mem_failed_cfgs pre q r)).symm, fun r hok => ?_⟩
    have hrq : r ≠ q := by
      rintro rfl
      simp [hok] at hq
    rw [State.dirOf, hd r, if_neg hrq]
    simp [or_comm]
  · refine ⟨refreshEvents v s, refreshSteps_history v s, latOf_refreshSteps v s, fun r _ => ?_⟩
    simp [cfg_not_mem_refreshEvents]
  · exact ⟨[], by simp⟩

theorem exec_keeps_historyInv {i : Instr} {s t : State} (hinv : HistoryInv s) (h : exec i s = .next t) :
    HistoryInv t := by
  obtain ⟨new, hnew, hlat, hdir⟩ := exec_events h
  refine ⟨fun r => ?_, fun r hok => ?_⟩
  · rw [hlat, hinv.latches, hnew, levelAfter_append]
  · rw [exec_config h] at hok
    rw [hdir r hok, hinv.outputs r hok, hnew, List.mem_append]

/-- Settles O40: a command by the events it adds; the reset event empties latches, outputs and history together. -/
theorem stepKeepsTheHistoryAnAccount : Obligations.StepKeepsTheHistoryAnAccount := by
  intro s t hinv h
  obtain ⟨-, ⟨-, rfl⟩ | ⟨rest, -, rfl⟩ | ⟨w, rest, i, -, -, he⟩ | ⟨w, rest, why, -, -, -, rfl⟩⟩ := step_next h
  · exact hinv
  · exact historyInv_resetEvent _
  · exact exec_keeps_historyInv (s := s.setPending rest) ⟨hinv.latches, hinv.outputs⟩ he
  · exact ⟨hinv.latches, hinv.outputs⟩

/-! ### Never two lines active -/

theorem neverTwoActive_nil (a : Level) : NeverTwoActive a [] := by
  intro n j k hj
  simp at hj

/-- Events that bring no digit-select line to the active level leave no two active. -/
theorem NeverTwoActive.append {a : Level} {hist new : List GpioEvent} (h : NeverTwoActive a hist)
    (hnew : ∀ k, .wr (.dig k) a ∉ new) : NeverTwoActive a (hist ++ new) := by
  have hbefore : ∀ (n : Nat) (k : Position), levelAfter (.dig k) none ((hist ++ new).take n) = some a →
      levelAfter (.dig k) none (hist.take n) = some a := by
    intro n k hk
    rw [List.take_append, levelAfter_append] at hk
    exact (mem_of_levelAfter _ _ _ _ hk).resolve_left fun hm => hnew k (List.mem_of_mem_take hm)
  exact fun n j k hj hk => h n j k (hbefore n j hj) (hbefore n k hk)

/-- An event after which at most one line is active. -/
theorem NeverTwoActive.concat {a : Level} {hist : List GpioEvent} {e : GpioEvent} (h : NeverTwoActive a hist)
    (hend : ∀ j k : Position, levelAfter (.dig j) none (hist ++ [e]) = some a →
      levelAfter (.dig k) none (hist ++ [e]) = some a → j = k) : NeverTwoActive a (hist ++ [e]) := by
  intro n
  obtain hafter | hbefore := Nat.lt_or_ge hist.length n
  · rw [List.take_of_length_le (by simpa using hafter)]
    exact hend
  · rw [List.take_append_of_le_length hbefore]
    exact h n

/-- One REFRESH: every write but the last is inactive or a segment's, and after the last only its line is active. -/
theorem NeverTwoActive.append_refreshEvents {s : State} {hist : List GpioEvent}
    (h : NeverTwoActive s.config.digitActiveLevel hist) (v : Value) :
    NeverTwoActive s.config.digitActiveLevel (hist ++ refreshEvents v s) := by
  have hend : ∀ k, levelAfter (.dig k) none (hist ++ refreshEvents v s) = some s.config.digitActiveLevel →
      k = s.cursor := by
    intro k hk
    rw [levelAfter_append, levelAfter_refreshEvents] at hk
    exact (digLevel_eq_active_iff _ _ _).mp (Option.some.inj hk)
  rw [refreshEvents_eq, ← List.append_assoc] at hend ⊢
  refine (h.append fun k => ?_).concat fun j k hj hk => (hend j hj).trans (hend k hk).symm
  simp [wr_dig_not_mem_segEvents, wr_dig_mem_inactiveEvents]

theorem exec_keeps_neverTwoActive {i : Instr} {s t : State}
    (hinv : NeverTwoActive s.config.digitActiveLevel s.history) (h : exec i s = .next t) :
    NeverTwoActive t.config.digitActiveLevel t.history := by
  rw [exec_config h]
  obtain ⟨-, ⟨-, -, d, rfl, -⟩ | ⟨-, pre, q, post, d, -, -, -, rfl, -⟩ | ⟨v, -, -, rfl⟩ | ⟨v, -, -, rfl⟩⟩ :=
    exec_cases h
  · exact hinv.append fun k => wr_not_mem_map_cfg _ _ _
  · exact hinv.append fun k => wr_not_mem_failed_cfgs pre q _ _
  · rw [refreshSteps_history]
    exact hinv.append_refreshEvents v
  · exact hinv

/-- Settles O41: a command by `exec_keeps_neverTwoActive`; the reset event empties the history. -/
theorem neverTwoLinesActiveAtThePins : Obligations.NeverTwoLinesActiveAtThePins := by
  intro s t hinv h
  obtain ⟨-, ⟨-, rfl⟩ | ⟨rest, -, rfl⟩ | ⟨w, rest, i, -, -, he⟩ | ⟨w, rest, why, -, -, -, rfl⟩⟩ := step_next h
  · exact hinv
  · exact neverTwoActive_nil _
  · exact exec_keeps_neverTwoActive (s := s.setPending rest) hinv he
  · exact hinv

/-- Settles O37: a state just after reset is what the reset event leaves. -/
theorem invariantsHoldAfterReset : Obligations.InvariantsHoldAfterReset := by
  refine ⟨fun s hreset => ?_, rfl⟩
  rw [← show resetEvent s = s from hreset]
  exact ⟨scanInv_resetEvent s, faultInv_of_none rfl rfl, historyInv_resetEvent s, neverTwoActive_nil _⟩

end Sys2Proof.Machine

/-! Inside a REFRESH, and several commands (41_digit_scanner.md section 5, 70_reset_and_hazards.md section 3). -/

namespace Sys2Proof.Machine

/-! ### Inside a REFRESH -/

theorem wr_seg_not_mem_inactiveEvents (a l : Level) (c : Position) (i : Fin 7) :
    .wr (.seg i) l ∉ inactiveEvents a c := by
  simp [inactiveEvents]

@[simp] theorem segEvents_length (p : Pattern) : (segEvents p).length = 7 := by simp [segEvents]

/-- The first `n` segment writes are those of the first `n` segments. -/
theorem wr_seg_mem_take_segEvents (p : Pattern) (n : Nat) (i : Fin 7) (l : Level) :
    .wr (.seg i) l ∈ (segEvents p).take n ↔ i.val < n ∧ l = segLevel p i := by
  have hmem : i ∈ (List.finRange 7).take n ↔ i.val < n := by
    rw [List.mem_take_iff_getElem]
    refine ⟨?_, fun hn => ⟨i.val, by simp [hn], by simp⟩⟩
    rintro ⟨j, hj, rfl⟩
    simpa using (lt_min_iff.mp hj).1
  rw [segEvents, ← List.map_take, List.mem_map]
  constructor
  · rintro ⟨j, hj, he⟩
    obtain ⟨rfl, rfl⟩ : j = i ∧ segLevel p j = l := by simpa using he
    exact ⟨hmem.mp hj, rfl⟩
  · rintro ⟨hn, rfl⟩
    exact ⟨i, hmem.mpr hn, rfl⟩

/-- Among the first `n` events of a REFRESH a segment's write is there when its index is below `n`. -/
theorem wr_seg_mem_take_refreshEvents (v : Value) (s : State) (n : Nat) (i : Fin 7) (l : Level) :
    .wr (.seg i) l ∈ (refreshEvents v s).take n ↔
      i.val < n ∧ l = segLevel (lookup s.config (digitAt (decompose v) s.cursor)) i := by
  have hrest : ∀ (a : Level) (c : Position) (m : Nat),
      GpioEvent.wr (.seg i) l ∉ (inactiveEvents a c ++ [GpioEvent.wr (.dig c) a]).take m := fun a c m hm => by
    simpa [wr_seg_not_mem_inactiveEvents] using List.mem_of_mem_take hm
  rw [refreshEvents_eq, List.append_assoc, List.take_append, List.mem_append, wr_seg_mem_take_segEvents]
  simp only [hrest, or_false]

/-- After `n` writes of a REFRESH the first `n` segment lines hold the new pattern (70_reset_and_hazards.md R107). -/
theorem levelAfter_seg_take_refreshEvents (v : Value) (s : State) (n : Nat) (i : Fin 7) (b : Option Level) :
    levelAfter (.seg i) b ((refreshEvents v s).take n) =
      if i.val < n then some (segLevel (lookup s.config (digitAt (decompose v) s.cursor)) i) else b := by
  rw [levelAfter_of_writes (.seg i) (segLevel (lookup s.config (digitAt (decompose v) s.cursor)) i) _ b
    fun m hm => ((wr_seg_mem_take_refreshEvents v s n i m).mp hm).2]
  simp [wr_seg_mem_take_refreshEvents]

/-- Before the last write of a REFRESH only inactive levels come to the digit-select lines. -/
theorem wr_dig_mem_take_refreshEvents {v : Value} {s : State} {n : Nat} (hn : n ≤ 10) {k : Position} {l : Level}
    (h : .wr (.dig k) l ∈ (refreshEvents v s).take n) : l = s.config.digitActiveLevel.inverse := by
  have hlen := refreshEvents_length v s
  rw [refreshEvents_eq, List.length_append, List.length_singleton] at hlen
  rw [refreshEvents_eq, List.take_append_of_le_length (by omega)] at h
  obtain hseg | hdig := List.mem_append.mp (List.mem_of_mem_take h)
  · exact absurd hseg (wr_dig_not_mem_segEvents _ k l)
  · exact ((wr_dig_mem_inactiveEvents _ l _ k).mp hdig).2

/-- Until the last write of a REFRESH a line is active when it was before and its inactive write has not come. -/
theorem levelAfter_dig_take_refreshEvents {v : Value} {s : State} {n : Nat} (hn : n ≤ 10) (k : Position)
    (b : Option Level) :
    levelAfter (.dig k) b ((refreshEvents v s).take n) = some s.config.digitActiveLevel ↔
      b = some s.config.digitActiveLevel ∧
        .wr (.dig k) s.config.digitActiveLevel.inverse ∉ (refreshEvents v s).take n := by
  rw [levelAfter_of_writes (.dig k) s.config.digitActiveLevel.inverse _ b
    fun m hm => wr_dig_mem_take_refreshEvents hn hm]
  by_cases hw : .wr (.dig k) s.config.digitActiveLevel.inverse ∈ (refreshEvents v s).take n
  · simp [hw]
  · simp [hw]

/-- A REFRESH writes every line but the cursor's to the inactive level. -/
theorem wr_inactive_mem_refreshEvents (v : Value) (s : State) {k : Position} (hk : k ≠ s.cursor) :
    .wr (.dig k) s.config.digitActiveLevel.inverse ∈ refreshEvents v s := by
  rw [refreshEvents_eq]
  simp [wr_dig_mem_inactiveEvents, hk]

theorem latOf_dig_eq_active_iff {s : State} {c k : Position} (h : s.OnlyActive c) :
    s.latOf (.dig k) = some s.config.digitActiveLevel ↔ k = c := by
  have hk := h k
  rw [State.digActive, Option.map_eq_some_iff] at hk
  obtain ⟨b, hb, hdec⟩ := hk
  rw [hb, Option.some.injEq]
  exact decide_eq_decide.mp hdec

theorem position_add_three_ne (c : Position) : c + 3 ≠ c := by revert c; decide

/-- Settles O42: the segments by the first `n` writes; the selects before the last write, and after it. -/
theorem transientStatesOfARefresh : Obligations.TransientStatesOfARefresh := by
  intro s t v old hactive hold h ht
  obtain rfl := exec_refresh_completed h ht
  refine ⟨refreshEvents v s, refreshSteps_history v s, refreshEvents_length v s, fun n hn => ⟨fun i => ?_, fun k => ?_⟩⟩
  · have hsymbol := congrArg (fun b => lookup s.config (digitAt b s.cursor)) (refreshSteps_digbuf v s)
    rw [levelAfter_seg_take_refreshEvents, hold i, ← segLevel_eq_ite, ← hsymbol]
    split <;> rfl
  · obtain hlt | rfl : n ≤ 10 ∨ n = 11 := by omega
    · have hn11 : n ≠ 11 := by omega
      simp [levelAfter_dig_take_refreshEvents hlt, latOf_dig_eq_active_iff hactive, hn11]
    · rw [List.take_of_length_le (refreshEvents_length v s).le, levelAfter_refreshEvents]
      have hlast : ¬(k = s.cursor + 3 ∧ .wr (.dig k) s.config.digitActiveLevel.inverse ∉ refreshEvents v s) := by
        rintro ⟨rfl, hnot⟩
        exact hnot (wr_inactive_mem_refreshEvents v s (position_add_three_ne s.cursor))
      rw [or_iff_left hlast]
      simp [digLevel_eq_active_iff]

/-! ### Any mix of commands -/

/-- A command of an initialised running block whose roles can be configured completes, and counts if it is a REFRESH. -/
theorem exec_ready {s : State} (i : Instr) (hok : AllConfigurable s.config) (hf : s.Running)
    (hdone : s.initDone = true) :
    ∃ t, exec i s = .next t ∧ t.pending = s.pending ∧ t.Running ∧ t.initDone = true ∧ t.config = s.config ∧
      t.cursor.toNat = (s.cursor.toNat + refreshCount [i]) % 4 := by
  cases i with
  | init =>
    obtain ⟨d, he, -⟩ := exec_init_ok hf hok
    exact ⟨_, he, rfl, hf, rfl, rfl, (Nat.mod_eq_of_lt s.cursor.isLt).symm⟩
  | refresh v =>
    exact ⟨_, exec_refresh_running v hf hdone, refreshSteps_pending v s, (refreshSteps_fault v s).trans hf,
      (refreshSteps_initDone v s).trans hdone, refreshSteps_config v s, position_add_one_toNat s.cursor⟩

theorem refreshCount_cons (i : Instr) (is : List Instr) :
    refreshCount (i :: is) = refreshCount [i] + refreshCount is := by
  cases i with
  | init => exact (Nat.zero_add _).symm
  | refresh v => exact Nat.add_comm _ _

/-- Settles O43: by induction on the commands; the step takes the first, which leaves a block as ready as before. -/
theorem cursorCountsTheRefreshes : Obligations.CursorCountsTheRefreshes := by
  intro is
  induction is with
  | nil =>
    intro s rest _ _ hf hdone hp
    exact ⟨s, rfl, hp, hf, hdone, rfl, (Nat.mod_eq_of_lt s.cursor.isLt).symm⟩
  | cons i is ih =>
    intro s rest ha hok hf hdone hp
    obtain ⟨u, hu, hpu, hfu, hdu, hcu, hcur⟩ :=
      exec_ready (s := s.setPending (is.map commandEvent ++ rest)) i hok hf hdone
    have hstep : step s = .next u := (stepRunsTheDecodedCommand s _ _ i ha hp (decode_encode i)).trans hu
    rw [State.setPending_config] at hcu
    obtain ⟨t, hrun, hpt, hft, hdt, hct, hcurt⟩ := ih u rest (hcu ▸ ha) (hcu ▸ hok) hfu hdu hpu
    refine ⟨t, (core_run_next is.length hstep).trans hrun, hpt, hft, hdt, hct.trans hcu, ?_⟩
    rw [hcurt, hcur, refreshCount_cons i is, Nat.mod_add_mod, Nat.add_assoc]
    rfl

/-! ### One scan of the display -/

/-- The state after the first `n` of the REFRESH commands with the values `v 0`, `v 1`, … -/
def scanState (s : State) (v : Position → Value) : Nat → State
  | 0 => s
  | n + 1 => refreshSteps (v (BitVec.ofNat 2 n)) (scanState s v n)

section
variable (s : State) (v : Position → Value) (n : Nat)

@[simp] theorem scanState_fault : (scanState s v n).fault = s.fault := by
  induction n with
  | zero => rfl
  | succ n ih => exact (refreshSteps_fault _ _).trans ih

@[simp] theorem scanState_initDone : (scanState s v n).initDone = s.initDone := by
  induction n with
  | zero => rfl
  | succ n ih => exact (refreshSteps_initDone _ _).trans ih

@[simp] theorem scanState_config : (scanState s v n).config = s.config := by
  induction n with
  | zero => rfl
  | succ n ih => exact (refreshSteps_config _ _).trans ih

@[simp] theorem scanState_cursor : (scanState s v n).cursor = s.cursor + BitVec.ofNat 2 n := by
  induction n with
  | zero => exact (BitVec.add_zero s.cursor).symm
  | succ n ih =>
    rw [scanState, refreshSteps_cursor, ih, BitVec.add_assoc, BitVec.ofNat_add]
    rfl

theorem exec_refresh_scanState (hf : s.Running) (hdone : s.initDone = true) :
    exec (.refresh (v (BitVec.ofNat 2 n))) (scanState s v n) = .next (scanState s v (n + 1)) :=
  exec_refresh_running _ ((scanState_fault s v n).trans hf) ((scanState_initDone s v n).trans hdone)

end

/-- After the REFRESH of position `k` of a scan that position alone is active and shows its digit. -/
theorem scanState_shows (s : State) (v : Position → Value) (k : Position) :
    (scanState s v (k.toNat + 1)).OnlyActive (s.cursor + k) ∧
      (scanState s v (k.toNat + 1)).ShowsPattern (lookup s.config (digitAt (decompose (v k)) (s.cursor + k))) := by
  have hactive := refreshSteps_onlyActive (v k) (scanState s v k.toNat)
  have hshow := refreshSteps_showsPattern (v k) (scanState s v k.toNat)
  rw [scanState_cursor, BitVec.ofNat_toNat, BitVec.setWidth_eq] at hactive hshow
  rw [scanState_config] at hshow
  rw [scanState, BitVec.ofNat_toNat, BitVec.setWidth_eq]
  exact ⟨hactive, hshow⟩

/-- Settles O44: the states of the scan, each by `scanState_shows`; four positions bring CURSOR round. -/
theorem fourRefreshesScanTheDisplay : Obligations.FourRefreshesScanTheDisplay := by
  intro s v hf hdone
  have hexec := fun n => exec_refresh_scanState s v n hf hdone
  refine ⟨fun k => scanState s v (k.toNat + 1), hexec 0, hexec 1, hexec 2, hexec 3, scanState_shows s v, ?_⟩
  exact (scanState_cursor s v 4).trans (BitVec.add_zero s.cursor)

end Sys2Proof.Machine

/-! What no command reads (10_state.md section 5, 20_memory.md sections 1 and 8). -/

namespace Sys2Proof.Machine

/-! ### DIGBUF -/

/-- REFRESH writes DIGBUF before it reads it. -/
theorem refreshSteps_setDigbuf (v : Value) (s : State) (d : Vector Digit 4) :
    refreshSteps v (s.setDigbuf d) = refreshSteps v s := rfl

/-- Two DIR vectors that the same calls leave over the same directions are one. -/
theorem dir_eq_of_bits {d d' : Vector Bool 12} {f : Role → Bool} (h : ∀ r : Role, d[r.number] = f r)
    (h' : ∀ r : Role, d'[r.number] = f r) : d' = d :=
  ext_roles fun r => (h' r).trans (h r).symm

/-- Settles O45: INIT and a fault carry DIGBUF along; REFRESH has overwritten it. -/
theorem digitBufferIsHidden : Obligations.DigitBufferIsHidden := by
  intro i s t b h
  obtain ⟨hf, ⟨rfl, hok, d, rfl, hd⟩ | ⟨rfl, pre, q, post, d, hroles, hpre, hq, rfl, hd⟩ | ⟨v, rfl, hdone, rfl⟩ |
    ⟨v, rfl, hundone, rfl⟩⟩ := exec_cases h
  · obtain ⟨d', he, hd'⟩ := exec_init_ok (s := s.setDigbuf b) hf hok
    obtain rfl : d' = d := dir_eq_of_bits hd hd'
    exact ⟨_, he, rfl, nofun⟩
  · obtain ⟨d', he, hd'⟩ := exec_init_failed (s := s.setDigbuf b) hf hroles hpre hq
    obtain rfl : d' = d := dir_eq_of_bits hd hd'
    exact ⟨_, he, rfl, nofun⟩
  · exact ⟨_, exec_refresh_running (s := s.setDigbuf b) v hf hdone, rfl, fun _ _ _ => refreshSteps_setDigbuf v s b⟩
  · exact ⟨_, exec_refresh_uninitialised (s := s.setDigbuf b) v hf hundone, rfl, nofun⟩

/-! ### DIR, LAT and the history -/

/-- The same state with other lines and another history. -/
def State.withLines (s : State) (d : Vector Bool 12) (l : Vector (Option Level) 12) (h : List GpioEvent) : State :=
  { s with dir := d, lat := l, history := h }

section
variable (s : State) (d : Vector Bool 12) (l : Vector (Option Level) 12) (h : List GpioEvent)

/-- What a REFRESH writes depends on the value, CURSOR and the configuration alone. -/
theorem refreshEvents_withLines (v : Value) : refreshEvents v (s.withLines d l h) = refreshEvents v s := rfl

/-- A REFRESH from other lines answers the same state but for the lines. -/
theorem exec_refresh_withLines (v : Value) (hf : s.Running) (hdone : s.initDone = true) :
    exec (.refresh v) (s.withLines d l h) =
      .next ((refreshSteps v s).withLines d (refreshSteps v (s.withLines d l h)).lat (h ++ refreshEvents v s)) := by
  rw [exec_refresh_running (s := s.withLines d l h) v hf hdone, refreshSteps_frame v (s.withLines d l h),
    refreshSteps_frame v s]
  rfl

/-- A line that a REFRESH writes ends at the same level whatever the lines were before. -/
theorem latOf_refreshSteps_withLines (v : Value) {r : Role} {b : Level} (hr : .wr r b ∈ refreshEvents v s) :
    (refreshSteps v (s.withLines d l h)).latOf r = (refreshSteps v s).latOf r := by
  have hne : r ≠ .dp := by
    rintro rfl
    exact wr_dp_not_mem_refreshEvents v s b hr
  obtain ⟨m, hm⟩ := exists_levelAfter_refreshEvents v s hne
  rw [latOf_refreshSteps, latOf_refreshSteps, refreshEvents_withLines, hm, hm]

end

/-- Settles O46: each case of a command from the other lines; INIT and a fault write none, and a REFRESH the
same ones. -/
theorem theLinesNeverFeedBack : Obligations.TheLinesNeverFeedBack := by
  intro i s t d l hist h
  obtain ⟨hf, ⟨rfl, hok, e, rfl, -⟩ | ⟨rfl, pre, q, post, e, hroles, hpre, hq, rfl, -⟩ | ⟨v, rfl, hdone, rfl⟩ |
    ⟨v, rfl, hundone, rfl⟩⟩ := exec_cases h
  · obtain ⟨e', he, -⟩ := exec_init_ok (s := s.withLines d l hist) hf hok
    exact ⟨_, _, he, rfl, rfl, rfl, rfl, rfl, rfl, rfl, rfl, rfl, rfl,
      fun r b hr => absurd hr (wr_not_mem_map_cfg _ r b)⟩
  · obtain ⟨e', he, -⟩ := exec_init_failed (s := s.withLines d l hist) hf hroles hpre hq
    exact ⟨_, _, he, rfl, rfl, rfl, rfl, rfl, rfl, rfl, rfl, rfl, rfl,
      fun r b hr => absurd hr (wr_not_mem_failed_cfgs pre q r b)⟩
  · exact ⟨_, refreshEvents v s, exec_refresh_withLines s d l hist v hf hdone, refreshSteps_history v s,
      rfl, rfl, rfl, rfl, rfl, rfl, rfl, rfl, rfl, fun r b hr => latOf_refreshSteps_withLines s d l hist v hr⟩
  · exact ⟨_, [], exec_refresh_uninitialised (s := s.withLines d l hist) v hf hundone, by simp,
      by simp [State.withLines], rfl, rfl, rfl, rfl, rfl, rfl, rfl, rfl, nofun⟩

end Sys2Proof.Machine
